-- ==== Sys2Proof/Word.lean ====
section
/-! DEFINITION. Words, half words and bytes: the bit vectors the spec's registers and bus data are made of (R10, R12). -/

namespace Sys2Proof

/-- A register of the window, a bus data word and a command word: 32 bits (R10, R64). -/
abbrev Word := BitVec 32

/-- The counter, the reload value and a compare value: 16 bits (R9, R16). -/
abbrev Half := BitVec 16

/-- One byte lane of a bus data word (R52). -/
abbrev Byte := BitVec 8

end Sys2Proof
end

