-- ==== Sys2Proof/Syntax.lean ====
section
/-! DEFINITION. The eleven commands of the opcode map (R68), one constructor per row of `spec/opcode_table.json`. -/

namespace Sys2Proof

/-- A command with its operands (R65, R68). `p` is the field `P` (period present), `ch` the channel identifier `CH` (R67)
and `duty` the field `DUTY`; fields a command ignores (R71) are no part of it. `ch` and `duty` are numbers, as the
assembler writes them (R72), and `WellFormed` says which of them the fields can hold. -/
inductive Instr where
  | init                                            -- R80
  | setperiod                                       -- R81
  | start                                           -- R89
  | stop                                            -- R90
  | restart                                         -- R91
  | resume                                          -- R92
  | pwm (p : Bool) (ch : Nat) (duty : Nat)          -- R99
  | setduty (ch : Nat) (duty : Nat)                 -- R100
  | dispwm (ch : Nat)                               -- R101
  | attach (p : Bool)                               -- R103
  | detach                                          -- R104
deriving DecidableEq, Repr

end Sys2Proof
end

