-- ==== Sys2Proof/WellFormed.lean ====
section
/-! DEFINITION. Which commands the one format can encode (R65, R72). -/

namespace Sys2Proof

/-- `CH` is two bits: the assembler refuses a `ch` above 3 (R72). -/
def chFits (ch : Nat) : Bool := decide (ch < 4)

/-- `DUTY` is eleven bits: the assembler refuses a `duty` above 2047 (R72). -/
def dutyFits (duty : Nat) : Bool := decide (duty < 2048)

/-- Every operand fits its field (R65, R72). An unrecognized channel (`CH` 2 or 3) is well-formed: it is a command with
no effect, not an encoding error (R67). -/
def Instr.wellFormed : Instr → Bool
  | .init | .setperiod | .start | .stop | .restart | .resume | .attach _ | .detach => true
  | .pwm _ ch duty => chFits ch && dutyFits duty
  | .setduty ch duty => chFits ch && dutyFits duty
  | .dispwm ch => chFits ch

end Sys2Proof
end

