-- ==== Sys2Proof/Decode.lean ====
section
/-! DEFINITION. The decoder of command words, total on any bytes and rejecting by name, and the encoder (R64 to R72). -/

namespace Sys2Proof

/-- Why bytes are no command. -/
inductive DecodeError where
  /-- The opcode is reserved: 0x0 or 0xC to 0xF (R70). -/
  | reserved (op : BitVec 4)
  /-- Fewer than the four bytes of a command word (R64). -/
  | truncated (bytes : Nat)
deriving DecidableEq, Repr

/-- `OP = w[3:0]` (R65, R66). -/
def fieldOp (w : Word) : BitVec 4 := w.extractLsb' 0 4

/-- `P = w[4]` (R65, R66). -/
def fieldP (w : Word) : Bool := w.getLsbD 4

/-- `CH = w[6:5]` (R65, R66). -/
def fieldCh (w : Word) : Nat := (w.extractLsb' 5 2).toNat

/-- `DUTY = w[18:8]` (R65, R66). -/
def fieldDuty (w : Word) : Nat := (w.extractLsb' 8 11).toNat

/-- The command a word encodes: `OP` selects it and nothing else does (R68). A reserved opcode is rejected by name
(R70). -/
def decodeWord (w : Word) : Except DecodeError Instr :=
  match (fieldOp w).toNat with
  | 0x1 => .ok .init
  | 0x2 => .ok .setperiod
  | 0x3 => .ok .start
  | 0x4 => .ok .stop
  | 0x5 => .ok .restart
  | 0x6 => .ok .resume
  | 0x7 => .ok (.pwm (fieldP w) (fieldCh w) (fieldDuty w))
  | 0x8 => .ok (.setduty (fieldCh w) (fieldDuty w))
  | 0x9 => .ok (.dispwm (fieldCh w))
  | 0xA => .ok (.attach (fieldP w))
  | 0xB => .ok .detach
  | _ => .error (.reserved (fieldOp w))

/-- The word whose byte lanes 0 to 3 are the given bytes: lane `k` carries bits `[8k+7:8k]` (R52). -/
def wordOfLanes (b0 b1 b2 b3 : Byte) : Word := b3 ++ b2 ++ b1 ++ b0

/-- Byte lane `k` of a word (R52). -/
def byteLane (w : Word) (k : Nat) : Byte := w.extractLsb' (8 * k) 8

/-- The four byte lanes of a word, lane 0 first (R52). -/
def lanesOfWord (w : Word) : List Byte := [byteLane w 0, byteLane w 1, byteLane w 2, byteLane w 3]

/-- Decoding bytes: every command is one word of four byte lanes (R64, R52); what follows it is handed back. -/
def decodeBytes : List Byte → Except DecodeError (Instr × List Byte)
  | b0 :: b1 :: b2 :: b3 :: rest =>
    match decodeWord (wordOfLanes b0 b1 b2 b3) with
    | .ok i => .ok (i, rest)
    | .error e => .error e
  | bs => .error (.truncated bs.length)

/-- The command read from an instruction whose bits are `w`, numbered as `spec/opcode_table.json` numbers them; the bits
above `nbits` are zero. -/
def decodeTableWord (nbits w : Nat) : Option Instr :=
  match decodeBytes (lanesOfWord (BitVec.ofNat 32 (w % 2 ^ nbits))) with
  | .ok (i, _) => some i
  | .error _ => none

/-- The opcode of a command, from the opcode map (R68). -/
def opcode : Instr → BitVec 4
  | .init => 0x1
  | .setperiod => 0x2
  | .start => 0x3
  | .stop => 0x4
  | .restart => 0x5
  | .resume => 0x6
  | .pwm _ _ _ => 0x7
  | .setduty _ _ => 0x8
  | .dispwm _ => 0x9
  | .attach _ => 0xA
  | .detach => 0xB

/-- Format `C`: the fields in their places, bits [7] and [31:19] zero (R65). -/
def formatC (op : BitVec 4) (p : Bool) (ch duty : Nat) : Word :=
  (0#13 ++ BitVec.ofNat 11 duty ++ 0#1 ++ BitVec.ofNat 2 ch ++ BitVec.ofBool p ++ op : BitVec 32)

/-- The word of a well-formed command as the assembler writes it: ignored bits and unused fields are 0 (R72). -/
def encode (i : Instr) : Word :=
  match i with
  | .init | .setperiod | .start | .stop | .restart | .resume | .detach => formatC (opcode i) false 0 0
  | .pwm p ch duty => formatC (opcode i) p ch duty
  | .setduty ch duty => formatC (opcode i) false ch duty
  | .dispwm ch => formatC (opcode i) false ch 0
  | .attach p => formatC (opcode i) p 0 0

/-- The four byte lanes of a command's word, as a little-endian bridge carries them (R52). -/
def encodeBytes (i : Instr) : List Byte := lanesOfWord (encode i)

end Sys2Proof
end

