-- ==== Sys2Proof/Config.lean ====
section
/-! DEFINITION. What an implementation fixes (the spec's parameters) and the free values (the spec's `draw`). -/

namespace Sys2Proof

/-- `FULL_SCALE`, the duty value that means 100 % duty (R8, U18): 1024 is the spec's value, 1023 the one other value a
model may take as the parameter. -/
inductive FullScale where
  | k1024
  | k1023
deriving DecidableEq, Repr

/-- The number a `FullScale` stands for (R8). -/
def FullScale.value : FullScale → Nat
  | .k1024 => 1024
  | .k1023 => 1023

/-- The parameters of the block (R7, R8, R10). They are no state (R16): a machine carries them beside its state, no step
changes them, and every statement over states holds for every value of them. -/
structure Config where
  /-- `CLK_HZ`, the clock frequency in hertz, `1 .. 2^32 - 1` (R7). -/
  clkHz : Nat
  /-- `FULL_SCALE` (R8). -/
  fullScale : FullScale
  /-- `BLOCK_BASE`, the window's address in the host's data space, a multiple of 64 (R10, R48). -/
  blockBase : Nat
  /-- `PIN_A`, the opaque identity of channel A's pin (R10). -/
  pinA : Nat
  /-- `PIN_B`, the opaque identity of channel B's pin (R10). -/
  pinB : Nat
deriving DecidableEq, Repr

/-- The ranges the spec gives the parameters (R7, R48). -/
abbrev Config.WF (c : Config) : Prop := 1 ≤ c.clkHz ∧ c.clkHz < 2 ^ 32 ∧ c.blockBase % 64 = 0

/-- The free values: the spec's `draw` takes the next one at each occurrence (R14). No body, so nothing can be proved of
any of them. Assumption log 1. -/
opaque Config.freeValue : Nat → Nat

/-- `CLK_HZ - 1` of the machine that `State.reset` describes, left open (R7). Assumption log 2. -/
opaque Config.freeClkHz : Fin 4294967295

/-- `BLOCK_BASE div 64` of the machine that `State.reset` describes, left open (R48). Assumption log 2. -/
opaque Config.freeBase : Nat

/-- `PIN_A` of the machine that `State.reset` describes, left open (R10). Assumption log 2. -/
opaque Config.freePinA : Nat

/-- `PIN_B` of the machine that `State.reset` describes, left open (R10). Assumption log 2. -/
opaque Config.freePinB : Nat

/-- The parameters of the machine that `State.reset` describes: all left open but `FULL_SCALE`, which has the spec's own
value (R8). -/
def Config.board : Config where
  clkHz := Config.freeClkHz.val + 1
  fullScale := .k1024
  blockBase := 64 * Config.freeBase
  pinA := Config.freePinA
  pinB := Config.freePinB

end Sys2Proof
end

