-- ==== Sys2Proof/Machine/State.lean ====
section
/-! DEFINITION. The block's state (R16), what the host presents to it in one clock cycle, and the state after reset (R47). -/

namespace Sys2Proof.Machine

/-- The stored prescaler selector `PSEL`: none, or one of the five divisors (R17). Codes 6 and 7 are never held, so they
have no constructor; the 3-bit codes the host sees are `Psel.code`. -/
inductive Psel where
  | none
  | div1
  | div8
  | div64
  | div256
  | div1024
deriving DecidableEq, Repr

/-- The run state `RUN` (R21). -/
inductive RunState where
  | stopped
  | counting
deriving DecidableEq, Repr

/-- The counter's direction `DIR` (R23). -/
inductive Dir where
  | up
  | down
deriving DecidableEq, Repr

/-- One of the two output-compare channels (R25). -/
inductive ChannelId where
  | A
  | B
deriving DecidableEq, Repr

/-- The state of one channel (R25). -/
structure Channel where
  /-- `EN_x`: output-compare mode enabled (R26). -/
  en : Bool
  /-- `CMP_x`: the compare value (R26). -/
  cmp : Half
  /-- `PINDIR_x`: the pin is requested as an output (R27). -/
  pindir : Bool
deriving DecidableEq, Repr

/-- The width of a host access: one, two or four bytes (R51). -/
inductive Size where
  | byte
  | half
  | word
deriving DecidableEq, Repr

/-- One host access. `off` is its address less `BLOCK_BASE`, as every rule of the register window writes it (R53, R54);
a negative `off` is an address below the window; an access outside the window is some other unit's (R45, R49). For a write narrower than a word only the low bits of `value` are
presented; no rule reads them (R51). -/
inductive Access where
  | read (off : Int) (size : Size)
  | write (off : Int) (size : Size) (value : Word)
deriving DecidableEq, Repr

/-- What the outside presents to the block in one clock cycle: nothing, one host access (R57), or an asserted reset with
the access, if any, that falls into it (R129). -/
inductive Cycle where
  | idle
  | access (a : Access)
  | rst (a : Option Access)
deriving DecidableEq, Repr

/-- The block's state. The fields from `psel` to `argHandle` are exactly the elements of R16; `cfg` is the parameters,
which no step changes; the last four fields are the model's own. -/
structure State where
  /-- The parameters `CLK_HZ`, `FULL_SCALE`, `BLOCK_BASE`, `PIN_A`, `PIN_B` (R7, R8, R10). -/
  cfg : Config
  /-- `PSEL` (R17). -/
  psel : Psel
  /-- `RELOAD` (R19). -/
  reload : Half
  /-- `RUN` (R21). -/
  run : RunState
  /-- `CNT` (R23). -/
  cnt : Half
  /-- `DIR` (R23). -/
  dir : Dir
  /-- `PHASE`: clock cycles left until the next tick (R24). -/
  phase : BitVec 11
  /-- `EN_A`, `CMP_A`, `PINDIR_A` (R25). -/
  chA : Channel
  /-- `EN_B`, `CMP_B`, `PINDIR_B` (R25). -/
  chB : Channel
  /-- `OVF`: the pending overflow flag (R28). -/
  ovf : Bool
  /-- `OVIE`: the overflow interrupt enable (R29). -/
  ovie : Bool
  /-- `CBV`: a callback is stored (R30). -/
  cbv : Bool
  /-- `HANDLE`: the stored callback handle (R30). -/
  handle : Word
  /-- `ARG_PERIOD` (R33). -/
  argPeriod : Word
  /-- `ARG_HANDLE` (R33). -/
  argHandle : Word
  /-- The model's own: `PHASE` was loaded in this clock cycle (R110). False between clock cycles. -/
  phaseLoaded : Bool
  /-- The model's own: the clock cycles the host has lined up, the next one first. Empty: the host presents nothing. -/
  inputs : List Cycle
  /-- The model's own: the word the block answered to a read of the latest clock cycle (R54), none if that cycle held no read
  of the block. -/
  rdata : Option Word
  /-- The model's own: how many free values have been drawn so far (R14). -/
  draws : Nat
deriving DecidableEq, Repr

/-- A stop with a fault. The type is EMPTY: "The block raises no exception, fault or error of any kind" (R107), so no
meaning and no step can answer with one. -/
inductive Fault where
deriving DecidableEq, Repr

/-- The reasons this model does not say what happens. -/
inductive Refusal where
  /-- `exec` has no meaning for the command yet. Raised by nobody: every command has its meaning. Safe. -/
  | notModelled (mnemonic : String)
deriving DecidableEq, Repr

/-- The low `w` bits of the `k`-th free value: `draw(0 .. 2^w - 1)` (R14). -/
def drawBits (w k : Nat) : BitVec w := BitVec.ofNat w (Config.freeValue k)

/-- The `k`-th free value as a direction: `draw({0, 1})` (R14). -/
def drawDir (k : Nat) : Dir := if Config.freeValue k % 2 = 0 then .up else .down

/-- The `k`-th free value as a phase of the whole range of `PHASE`, `draw(0 .. 1024)` (R16, R47). -/
def drawAnyPhase (k : Nat) : BitVec 11 := BitVec.ofNat 11 (Config.freeValue k % 1025)

/-- Every element at its reset value (R47): the elements the spec leaves unspecified take the free values from the `k`-th
on. `cfg` and `inputs` are no state of the block and are handed in. -/
def State.afterReset (cfg : Config) (inputs : List Cycle) (k : Nat) : State where
  cfg := cfg
  psel := .none
  reload := drawBits 16 k
  run := .stopped
  cnt := drawBits 16 (k + 1)
  dir := drawDir (k + 2)
  phase := drawAnyPhase (k + 3)
  chA := { en := false, cmp := drawBits 16 (k + 4), pindir := false }
  chB := { en := false, cmp := drawBits 16 (k + 5), pindir := false }
  ovf := false
  ovie := false
  cbv := false
  handle := drawBits 32 (k + 6)
  argPeriod := 0
  argHandle := 0
  phaseLoaded := false
  inputs := inputs
  rdata := none
  draws := k + 7

/-- The block right after reset, with no access lined up (R47, R130). -/
def State.reset : State := State.afterReset Config.board [] 0

end Sys2Proof.Machine
end

