-- ==== Sys2Proof/Machine/Operands.lean ====
section
/-! DEFINITION. How operands are formed: selector codes and divisors (R17, R18), channels (R67), the period calculator
(R76, R77) and the duty converter (R96). -/

namespace Sys2Proof.Machine

/-- The 3-bit code of a selector (R17). -/
def Psel.code : Psel → BitVec 3
  | .none => 0
  | .div1 => 1
  | .div8 => 2
  | .div64 => 3
  | .div256 => 4
  | .div1024 => 5

/-- `DIV(c)`: the divisor of a selector, defined for the codes 1..5 only (R18). -/
def Psel.div? : Psel → Option Nat
  | .none => Option.none
  | .div1 => some 1
  | .div8 => some 8
  | .div64 => some 64
  | .div256 => some 256
  | .div1024 => some 1024

/-- The channel a `CH` operand names: 0 is A, 1 is B, any other names none (R67). -/
def channelOf : Nat → Option ChannelId
  | 0 => some .A
  | 1 => some .B
  | _ => none

/-- `cycles(us)`, the half period in clock cycles: the exact product, then one truncating division (R76). -/
def cycles (clkHz us : Nat) : Nat := clkHz * us / 2000000

/-- The selectors with their divisors in the increasing order in which the calculator tries them (R18, R77). -/
def prescalers : List (Psel × Nat) :=
  [(.div1, 1), (.div8, 8), (.div64, 64), (.div256, 256), (.div1024, 1024)]

/-- The first selector of the list whose quotient is below 65536, with that quotient; none fits: the largest selector and
65535 (R77). -/
def firstFit (cy : Nat) : List (Psel × Nat) → Psel × Half
  | [] => (.div1024, 65535)
  | (c, n) :: rest => if cy / n < 65536 then (c, BitVec.ofNat 16 (cy / n)) else firstFit cy rest

/-- `period_config(us)`: the clock configuration of a request of `us` microseconds (R77). -/
def periodConfig (clkHz us : Nat) : Psel × Half := firstFit (cycles clkHz us) prescalers

/-- `d'`: the duty clamped to full scale (R96). -/
def clampDuty (fs : FullScale) (duty : Nat) : Nat := min duty fs.value

/-- `conv(r, d)`: the compare value, rounded to nearest with ties up (R96, R97). -/
def conv (fs : FullScale) (r : Half) (duty : Nat) : Half :=
  BitVec.ofNat 16 ((r.toNat * clampDuty fs duty + fs.value / 2) / fs.value)

end Sys2Proof.Machine
end

