-- ==== Sys2Proof/Machine/Flags.lean ====
section
/-! DEFINITION. The derived signals and the register words made of flags: `ECS` (R22), `IRQ` (R31), `STATUS` (R39),
`CONFIG` (R40), `COUNTER` (R42). -/

namespace Sys2Proof.Machine

/-- `RUN` as a bit: 1 is Counting (R21). -/
def RunState.bit : RunState → Bool
  | .stopped => false
  | .counting => true

/-- `DIR` as a bit: 1 is down (R23). -/
def Dir.bit : Dir → Bool
  | .up => false
  | .down => true

/-- `ECS`, the effective clock select: the stored selector while Counting, none while Stopped (R22). -/
def State.ecs (s : State) : Psel :=
  match s.run with
  | .stopped => .none
  | .counting => s.psel

/-- `IRQ = OVF AND OVIE` (R31). -/
def State.irq (s : State) : Bool := s.ovf && s.ovie

/-- `STATUS.CFG`: a period has been configured since reset (R39). -/
def State.configured (s : State) : Bool := decide (s.psel ≠ .none)

/-- The `STATUS` word (R39, R54). -/
def State.statusWord (s : State) : Word :=
  (0#22 ++ BitVec.ofBool s.configured ++ BitVec.ofBool s.irq ++ BitVec.ofBool s.chB.pindir ++ BitVec.ofBool s.chA.pindir
    ++ BitVec.ofBool s.chB.en ++ BitVec.ofBool s.chA.en ++ BitVec.ofBool s.cbv ++ BitVec.ofBool s.ovie
    ++ BitVec.ofBool s.ovf ++ BitVec.ofBool s.run.bit : BitVec 32)

/-- The `CONFIG` word: `PFC` hardwired 1 at bit 24, `PSEL`, `RELOAD` (R20, R40, R54). -/
def State.configWord (s : State) : Word := (0#7 ++ 1#1 ++ 0#5 ++ s.psel.code ++ s.reload : BitVec 32)

/-- The `COUNTER` word: `DIR` at bit 16, `CNT` (R42, R54). -/
def State.counterWord (s : State) : Word := (0#15 ++ BitVec.ofBool s.dir.bit ++ s.cnt : BitVec 32)

/-- The word of `CMPA` or `CMPB` (R41, R54). -/
def Channel.cmpWord (c : Channel) : Word := c.cmp.setWidth 32

end Sys2Proof.Machine
end

