-- ==== Sys2Proof/Machine/Ops.lean ====
section
/-! DEFINITION. The named operations over the block's registers that the meanings share. The block takes no exception and
returns from none (R107, R122), so there is no operation for either. -/

namespace Sys2Proof.Machine

/-- Write the clock configuration, both fields together (R78). -/
def State.setClock (s : State) (c : Psel) (r : Half) : State := { s with psel := c, reload := r }

/-- Write `RUN`. -/
def State.setRun (s : State) (r : RunState) : State := { s with run := r }

/-- Write `CNT` and `DIR`. -/
def State.setCounter (s : State) (c : Half) (d : Dir) : State := { s with cnt := c, dir := d }

/-- Write `PHASE` as the prescaler counts (R110). -/
def State.setPhase (s : State) (p : BitVec 11) : State := { s with phase := p }

/-- End the clock cycle's note that `PHASE` was loaded in it (R110). -/
def State.clearLoaded (s : State) : State := { s with phaseLoaded := false }

/-- Write `OVF`. -/
def State.setOvf (s : State) (b : Bool) : State := { s with ovf := b }

/-- Write `OVIE`. -/
def State.setOvie (s : State) (b : Bool) : State := { s with ovie := b }

/-- Store a callback: `HANDLE` and `CBV` (R30). -/
def State.storeCallback (s : State) (h : Word) : State := { s with handle := h, cbv := true }

/-- Write `ARG_PERIOD` (R38). -/
def State.setArgPeriod (s : State) (v : Word) : State := { s with argPeriod := v }

/-- Write `ARG_HANDLE` (R38). -/
def State.setArgHandle (s : State) (v : Word) : State := { s with argHandle := v }

/-- Set what the read of this clock cycle returns. -/
def State.setRdata (s : State) (v : Option Word) : State := { s with rdata := v }

/-- Set the clock cycles the host has lined up. -/
def State.setInputs (s : State) (cs : List Cycle) : State := { s with inputs := cs }

/-- The state of a channel (R25). -/
def State.chan (s : State) : ChannelId → Channel
  | .A => s.chA
  | .B => s.chB

/-- Write the state of a channel (R25). -/
def State.setChan (s : State) (x : ChannelId) (c : Channel) : State :=
  match x with
  | .A => { s with chA := c }
  | .B => { s with chB := c }

/-- `draw(1 .. n)` from a free value (R11, R109). For `n = 1` the only element is 1. -/
def drawUpTo (n k : Nat) : Nat := if n ≤ 1 then 1 else 1 + Config.freeValue k % n

/-- `PHASE <- draw(1 .. DIV(c))`, noted for the rest of the clock cycle (R109, R110). -/
def State.loadPhase (s : State) (n : Nat) : State :=
  { s with phase := BitVec.ofNat 11 (drawUpTo n s.draws), phaseLoaded := true, draws := s.draws + 1 }

/-- `PHASE <- draw(1 .. DIV(PSEL))` if `PSEL != 0`; not loaded when `PSEL = 0` (R89, R92, R109). -/
def State.loadPhaseOfPsel (s : State) : State :=
  match s.psel.div? with
  | none => s
  | some n => s.loadPhase n

/-- `CNT <- draw(0 .. 65535)`, `DIR <- draw({0, 1})` (R80). -/
def State.drawCounter (s : State) : State :=
  { s with cnt := drawBits 16 s.draws, dir := drawDir (s.draws + 1), draws := s.draws + 2 }

/-- The calculator's result for `ARG_PERIOD` as it stands (R33, R77). -/
def State.requestedConfig (s : State) : Psel × Half := periodConfig s.cfg.clkHz s.argPeriod.toNat

/-- `apply_period(ARG_PERIOD)`: the calculator's result becomes the configuration, and `PHASE` is drawn anew where a
counting block changes its selector (R78). -/
def State.applyPeriod (s : State) : State :=
  let (c, r) := s.requestedConfig
  let s1 := if s.run = .counting ∧ c ≠ s.psel then
      (match c.div? with
        | none => s
        | some n => s.loadPhase n)
    else s
  s1.setClock c r

/-- `apply_period(ARG_PERIOD)` where the command's `P` is 1, nothing where it is 0 (R66, R99, R103). -/
def State.applyPeriodIf (s : State) (p : Bool) : State := if p then s.applyPeriod else s

/-- Counting from zero, in the order of `START`'s pseudocode (R89). -/
def State.startCounting (s : State) : State :=
  (((s.setCounter 0 .up).setOvf false).setRun .counting).loadPhaseOfPsel

/-- `CMP_x <- conv(RELOAD, duty)` (R99, R100). -/
def State.setCompare (s : State) (x : ChannelId) (duty : Nat) : State :=
  s.setChan x { s.chan x with cmp := conv s.cfg.fullScale s.reload duty }

end Sys2Proof.Machine
end

