-- ==== Sys2Proof/Machine/Counter.lean ====
section
/-! DEFINITION. The overflow event, the counter's tick and the prescaler's clock cycle (60_exceptions.md, section 3). -/

namespace Sys2Proof.Machine

/-- `overflow_event()`: `OVF <- 1` and nothing else; an event while `OVF` is 1 merges (R114, R119). -/
def State.overflowEvent (s : State) : State := s.setOvf true

/-- `tick_zero()`: with `RELOAD = 0` a tick is a whole counting cycle (R112). -/
def State.tickZero (s : State) : State := (s.setCounter 0 .up).overflowEvent

/-- `tick()`: one tick of the up/down counter (R111). -/
def State.tick (s : State) : State :=
  if s.reload = 0 then s.tickZero
  else match s.dir with
    | .up =>
      if s.cnt < s.reload then s.setCounter (s.cnt + 1) .up
      else if s.cnt - 1 = 0 then (s.setCounter 0 .up).overflowEvent
      else s.setCounter (s.cnt - 1) .down
    | .down =>
      if s.cnt ≤ 1 then (s.setCounter 0 .up).overflowEvent
      else s.setCounter (s.cnt - 1) .down

/-- `clock_cycle()`: what the block's clock does after the host access of the cycle (R59, R110). Nothing while `ECS` is
none; nothing more in the cycle that loaded `PHASE`; else `PHASE` counts down, and at 0 the counter ticks and `PHASE`
starts again from the divisor. The note that `PHASE` was loaded ends with the cycle. -/
def State.clockCycle (s : State) : State :=
  match s.ecs.div? with
  | none => s.clearLoaded
  | some n =>
    if s.phaseLoaded then s.clearLoaded
    else if s.phase - 1 = 0 then s.tick.setPhase (BitVec.ofNat 11 n)
    else s.setPhase (s.phase - 1)

end Sys2Proof.Machine
end

