-- ==== Sys2Proof/Machine/Interrupt.lean ====
section
/-! DEFINITION. The interrupt family: `ATTACH` and `DETACH` (43_interrupt.md). -/

namespace Sys2Proof.Machine

/-- `ATTACH`: the period first where `P` is 1, then the callback and the interrupt enable; a pending overflow stays
(R103). -/
def execAttach (p : Bool) (s : State) : Host.Outcome State Fault Refusal :=
  .next (((s.applyPeriodIf p).storeCallback s.argHandle).setOvie true)

/-- `DETACH`: the interrupt enable only; the stored callback stays (R104). -/
def execDetach (s : State) : Host.Outcome State Fault Refusal := .next (s.setOvie false)

end Sys2Proof.Machine
end

