-- ==== Sys2Proof/Machine/Period.lean ====
section
/-! DEFINITION. The period family: `INIT` and `SETPERIOD` (40_period.md). -/

namespace Sys2Proof.Machine

/-- `INIT`: configure the period and enter Stopped; the counter becomes unspecified (R80). -/
def execInit (s : State) : Host.Outcome State Fault Refusal :=
  .next (((s.setClock s.requestedConfig.1 s.requestedConfig.2).setRun .stopped).drawCounter)

/-- `SETPERIOD`: `apply_period(ARG_PERIOD)`, keeping the run state (R81). -/
def execSetperiod (s : State) : Host.Outcome State Fault Refusal := .next s.applyPeriod

end Sys2Proof.Machine
end

