-- ==== Sys2Proof/Machine/Pwm.lean ====
section
/-! DEFINITION. The PWM family: `PWM`, `SETDUTY` and `DISPWM` (42_pwm.md). An unrecognized channel makes each of them have
no effect at all (R67). -/

namespace Sys2Proof.Machine

/-- `PWM`: the period first where `P` is 1, then the compare value against the reload value as just written, then the
enable and the pin request (R99). -/
def execPwm (p : Bool) (ch duty : Nat) (s : State) : Host.Outcome State Fault Refusal :=
  match channelOf ch with
  | none => .next s
  | some x =>
    let s1 := (s.applyPeriodIf p).setCompare x duty
    .next (s1.setChan x { s1.chan x with en := true, pindir := true })

/-- `SETDUTY`: the compare value only (R100). -/
def execSetduty (ch duty : Nat) (s : State) : Host.Outcome State Fault Refusal :=
  match channelOf ch with
  | none => .next s
  | some x => .next (s.setCompare x duty)

/-- `DISPWM`: the channel's enable only (R101). -/
def execDispwm (ch : Nat) (s : State) : Host.Outcome State Fault Refusal :=
  match channelOf ch with
  | none => .next s
  | some x => .next (s.setChan x { s.chan x with en := false })

end Sys2Proof.Machine
end

