-- ==== Sys2Proof/Machine/RunControl.lean ====
section
/-! DEFINITION. Run control: `START`, `STOP`, `RESTART` and `RESUME` (41_run_control.md). -/

namespace Sys2Proof.Machine

/-- `START`: count from zero, dropping a pending overflow (R89). -/
def execStart (s : State) : Host.Outcome State Fault Refusal := .next s.startCounting

/-- `STOP`: halt counting, keeping everything else (R90). -/
def execStop (s : State) : Host.Outcome State Fault Refusal := .next (s.setRun .stopped)

/-- `RESTART`: exactly what `START` does (R91). -/
def execRestart (s : State) : Host.Outcome State Fault Refusal := .next s.startCounting

/-- `RESUME`: from Stopped, count on from where it stopped; from Counting, no effect (R92). -/
def execResume (s : State) : Host.Outcome State Fault Refusal :=
  match s.run with
  | .stopped => .next (s.setRun .counting).loadPhaseOfPsel
  | .counting => .next s

end Sys2Proof.Machine
end

