-- ==== Sys2Proof/Machine/Dispatch.lean ====
section
/-! DEFINITION. The commit of one command: one arm per constructor of `Instr` (R69). -/

namespace Sys2Proof.Machine

def exec (i : Instr) (s : State) : Host.Outcome State Fault Refusal :=
  match i with
  | .init => Sys2Proof.Machine.execInit s
  | .setperiod => Sys2Proof.Machine.execSetperiod s
  | .start => Sys2Proof.Machine.execStart s
  | .stop => Sys2Proof.Machine.execStop s
  | .restart => Sys2Proof.Machine.execRestart s
  | .resume => Sys2Proof.Machine.execResume s
  | .pwm p ch duty => Sys2Proof.Machine.execPwm p ch duty s
  | .setduty ch duty => Sys2Proof.Machine.execSetduty ch duty s
  | .dispwm ch => Sys2Proof.Machine.execDispwm ch s
  | .attach p => Sys2Proof.Machine.execAttach p s
  | .detach => Sys2Proof.Machine.execDetach s

end Sys2Proof.Machine
end

