-- ==== Sys2Proof/Machine/Bus.lean ====
section
/-! DEFINITION. The register window: reads and writes (20_memory.md), the execution of a command word (R69), reset (R129),
and one whole clock cycle. -/

namespace Sys2Proof.Machine

/-- `execute_command(w)` (R69). A reserved opcode has no effect on any state (R70). -/
def executeCommand (w : Word) (s : State) : Host.Outcome State Fault Refusal :=
  match decodeWord w with
  | .ok i => exec i s
  | .error _ => .next s

/-- The word an admitted read at a window offset returns (R54). A write-only or reserved offset reads 0. -/
def State.regRead (s : State) (off : Nat) : Word :=
  match off with
  | 0x04 => s.argPeriod
  | 0x08 => s.argHandle
  | 0x0C => s.statusWord
  | 0x10 => s.configWord
  | 0x14 => s.chA.cmpWord
  | 0x18 => s.chB.cmpWord
  | 0x1C => s.counterWord
  | 0x20 => s.handle
  | _ => 0

/-- What an admitted write at a window offset does (R53): a command, an argument, an acknowledge, else nothing. -/
def busWrite (off : Nat) (v : Word) (s : State) : Host.Outcome State Fault Refusal :=
  match off with
  | 0x00 => executeCommand v s
  | 0x04 => .next (s.setArgPeriod v)
  | 0x08 => .next (s.setArgHandle v)
  | 0x24 => .next (if v.getLsbD 0 then s.setOvf false else s)
  | _ => .next s

/-- The offset of an access. -/
def Access.off : Access → Int
  | .read off _ => off
  | .write off _ _ => off

/-- The width of an access. -/
def Access.size : Access → Size
  | .read _ size => size
  | .write _ size _ => size

/-- The access begins inside the window of 64 bytes (R48). -/
def Access.inWindow (a : Access) : Bool := decide (0 ≤ a.off ∧ a.off < 64)

/-- The one access form the block admits: four bytes at a multiple of four (R51). -/
def Access.admitted (a : Access) : Bool := a.inWindow && decide (a.size = .word ∧ a.off % 4 = 0)

/-- The word the block answers to a read: the register's where the access is admitted, 0 where it is inside the window but not
admitted (R51), none where it is outside, since what answers there is the platform's (R49; log 9). -/
def State.answer (s : State) (a : Access) : Option Word :=
  if a.inWindow then some (if a.admitted then s.regRead a.off.toNat else 0) else none

/-- What an access does to the block's state, the read's word included. A non-admitted write is ignored (R51), and so is one
outside the window, which is outside the block (R45). -/
def accessBlock (a : Access) (s : State) : Host.Outcome State Fault Refusal :=
  match a with
  | .read off size => .next (s.setRdata (s.answer (.read off size)))
  | .write off size v =>
    if Access.admitted (.write off size v) then busWrite off.toNat v (s.setRdata none) else .next (s.setRdata none)

/-- What the block answers to a read in a cycle with `rst` asserted: 0 (R129). -/
def rstRdata : Option Access → Option Word
  | some (.read off size) => if Access.inWindow (.read off size) then some 0 else none
  | _ => none

/-- A clock cycle with `rst` asserted: every element takes its reset value, the access has no effect (R129). -/
def resetCycle (a : Option Access) (s : State) : State :=
  (State.afterReset s.cfg s.inputs s.draws).setRdata (rstRdata a)

/-- One clock cycle: the host access first, then the block's clock (R59, R110), which runs whatever the access addresses. -/
def runCycle (c : Cycle) (s : State) : Host.Outcome State Fault Refusal :=
  match c with
  | .idle => .next (s.setRdata none).clockCycle
  | .access a =>
    match accessBlock a s with
    | .next t => .next t.clockCycle
    | .fault r => .fault r
    | .refused r => .refused r
  | .rst a => .next (resetCycle a s)

/-- The clock cycle in which the host writes a word to `CMD` (R37). -/
def cmdWrite (w : Word) : Cycle := .access (.write 0x00 .word w)

end Sys2Proof.Machine
end

