-- ==== Sys2Proof/Machine/Step.lean ====
section
/-! DEFINITION. One step: one clock cycle with what the host presents in it (R57, R110). -/

namespace Sys2Proof.Machine

/-- One clock cycle: the next one the host has lined up, an idle one where it has lined up none. -/
def step (s : State) : Host.Outcome State Fault Refusal :=
  match s.inputs with
  | [] => runCycle .idle s
  | c :: rest => runCycle c (s.setInputs rest)

/-- `s` with the instruction word lined up as the very next `CMD` write: that is where the block takes its next command
from (R35, R62). -/
def State.withFetchWord (s : State) (nbits w : Nat) : State :=
  s.setInputs (cmdWrite (BitVec.ofNat 32 (w % 2 ^ nbits)) :: s.inputs)

end Sys2Proof.Machine
end

