-- ==== Sys2Proof/Machine/Output.lean ====
section
/-! DEFINITION. The signals the block drives (R106): the interrupt line and the two output-compare channels (R115, R117). -/

namespace Sys2Proof.Machine

/-- `OE_x`: the block drives the channel's pin, exactly while `EN_x` is 1 (R106, R115, R117). -/
def State.oe (s : State) (x : ChannelId) : Bool := (s.chan x).en

/-- The level of `OUT_x` while the channel is enabled: 1 when `CNT < CMP_x` (R115). -/
def State.level (s : State) (x : ChannelId) : Bool := decide (s.cnt < (s.chan x).cmp)

/-- `OUT_x`: a level while the channel is enabled; while it is not, it has no meaning and the block drives nothing
(R115, R117). -/
def State.out (s : State) (x : ChannelId) : Option Bool := if s.oe x then some (s.level x) else none

/-- What one channel's pin is given. -/
structure PinSignals where
  /-- The pin: `PIN_A` or `PIN_B` (R106). -/
  pin : Nat
  /-- `OE_x` (R106). -/
  oe : Bool
  /-- `OUT_x`, none where it has no meaning (R117). -/
  out : Option Bool
  /-- `PINDIR_x`: the request that the pin be an output (R27, R106). -/
  pindir : Bool
deriving DecidableEq, Repr

/-- All the block's outputs besides the bus (R106). -/
structure Signals where
  irq : Bool
  pinA : PinSignals
  pinB : PinSignals
deriving DecidableEq, Repr

/-- The signals of one channel, for the pin it is bound to (R25, R106). -/
def State.pinSignals (s : State) (x : ChannelId) : PinSignals where
  pin := match x with
    | .A => s.cfg.pinA
    | .B => s.cfg.pinB
  oe := s.oe x
  out := s.out x
  pindir := (s.chan x).pindir

/-- The block's signals in a state (R106). -/
def State.signals (s : State) : Signals where
  irq := s.irq
  pinA := s.pinSignals .A
  pinB := s.pinSignals .B

end Sys2Proof.Machine
end

