-- ==== Sys2Proof/Machine/HostProgram.lean ====
section
/-! DEFINITION. How a host drives the block: bus accesses by address (R14), host steps (R73), the API's expansions (R74) and
the dispatch a host performs when it takes the interrupt (R121). The host is no part of the block: nothing here is used by
`step`. -/

namespace Sys2Proof.Machine

/-- A register of the window by its name (R36). -/
inductive Reg where
  | cmd
  | argPeriod
  | argHandle
  | status
  | config
  | cmpA
  | cmpB
  | counter
  | cbHandle
  | irqAck
deriving DecidableEq, Repr

/-- `offset(reg)` (R36). -/
def Reg.offset : Reg → Nat
  | .cmd => 0x00
  | .argPeriod => 0x04
  | .argHandle => 0x08
  | .status => 0x0C
  | .config => 0x10
  | .cmpA => 0x14
  | .cmpB => 0x18
  | .counter => 0x1C
  | .cbHandle => 0x20
  | .irqAck => 0x24

/-- `MemWrite(addr, size, v)` as the block sees it: the address less `BLOCK_BASE` (R14, R48). -/
def memWrite (cfg : Config) (addr : Nat) (size : Size) (v : Word) : Cycle :=
  .access (.write ((addr : Int) - cfg.blockBase) size v)

/-- `MemRead(addr, size)` as the block sees it (R14, R48). -/
def memRead (cfg : Config) (addr : Nat) (size : Size) : Cycle := .access (.read ((addr : Int) - cfg.blockBase) size)

/-- The byte lane of a register's word that a byte-wide bridge shows at a window offset: lane `off mod 4` of the word at
the multiple of four below (R52). -/
def State.laneByte (s : State) (off : Nat) : Byte := byteLane (s.regRead (off - off % 4)) (off % 4)

/-- `WR reg, v` (R73). -/
def wr (r : Reg) (v : Word) : Cycle := .access (.write r.offset .word v)

/-- `RD reg` (R73). -/
def rd (r : Reg) : Cycle := .access (.read r.offset .word)

/-- `WR CMD, <command>` (R73). -/
def wrCmd (i : Instr) : Cycle := wr .cmd (encode i)

/-- `CLK n`: `n` clock cycles with no host access (R73). -/
def clk (n : Nat) : List Cycle := List.replicate n .idle

/-- How many clock cycles from the start of one it takes up to and including the cycle of the `n`-th tick, with no host
access; none where the counter does not move (R22, R109, R110). -/
def State.cyclesToTicks (s : State) : Nat → Option Nat
  | 0 => some 0
  | n + 1 => s.ecs.div?.map fun d => s.phase.toNat + n * d

/-- `TICKS n`, as the idle clock cycles it takes in a state (R73). -/
def State.ticks (s : State) (n : Nat) : Option (List Cycle) := (s.cyclesToTicks n).map clk

/-- An operation of the source's API (R74). -/
inductive ApiOp where
  | initialise (us : Word)
  | setPeriod (us : Word)
  | start
  | stop
  | restart
  | resume
  | pwm (ch duty : Nat) (us : Option Word)
  | setPwmDuty (ch duty : Nat)
  | disablePwm (ch : Nat)
  | attachInterrupt (cb : Word) (us : Option Word)
  | detachInterrupt
deriving DecidableEq, Repr

/-- The host accesses an API operation expands to (R74). Where a `ch` above 3 or a `duty` above 2047 is given, the spec has no
word for the call (R72's assembler refuses it); there the model's expansion keeps the low bits that fit the field, unchecked,
so that `disablePwm` of channel 4 becomes `DISPWM A`. DESIGN CHOICE, assumption log 13. -/
def ApiOp.expand : ApiOp → List Cycle
  | .initialise us => [wr .argPeriod us, wrCmd .init]
  | .setPeriod us => [wr .argPeriod us, wrCmd .setperiod]
  | .start => [wrCmd .start]
  | .stop => [wrCmd .stop]
  | .restart => [wrCmd .restart]
  | .resume => [wrCmd .resume]
  | .pwm ch duty none => [wrCmd (.pwm false ch duty)]
  | .pwm ch duty (some us) => [wr .argPeriod us, wrCmd (.pwm true ch duty)]
  | .setPwmDuty ch duty => [wrCmd (.setduty ch duty)]
  | .disablePwm ch => [wrCmd (.dispwm ch)]
  | .attachInterrupt cb none => [wr .argHandle cb, wrCmd (.attach false)]
  | .attachInterrupt cb (some us) => [wr .argHandle cb, wr .argPeriod us, wrCmd (.attach true)]
  | .detachInterrupt => [wrCmd .detach]

/-- Go on from a next state; a stop stays that stop. -/
def onNext {α : Type} (o : Host.Outcome State Fault Refusal) (f : State → Host.Outcome α Fault Refusal) :
    Host.Outcome α Fault Refusal :=
  match o with
  | .next t => f t
  | .fault r => .fault r
  | .refused r => .refused r

/-- The given clock cycles one after the other, whatever the host has lined up beside them. -/
def runCycles : List Cycle → State → Host.Outcome State Fault Refusal
  | [], s => .next s
  | c :: cs, s => onNext (runCycle c s) (runCycles cs)

/-- What a host does when it takes the interrupt (R121): read `STATUS`, read `CB_HANDLE`, acknowledge, and then invoke the
callback the handle names if `CBV` was read as 1. Answers the block's state after the acknowledge and the handle to
invoke, none where nothing is invoked. The three accesses in consecutive clock cycles are the model's choice, log 13. -/
def dispatch (s : State) : Host.Outcome (State × Option Word) Fault Refusal :=
  onNext (runCycle (rd .status) s) fun s1 =>
  onNext (runCycle (rd .cbHandle) s1) fun s2 =>
  onNext (runCycle (wr .irqAck 1) s2) fun s3 =>
  .next (s3, if (s1.rdata.getD 0).getLsbD 3 then some (s2.rdata.getD 0) else none)

/-- The canonical start-up (R133): configure, then `PWM` per chosen channel, then a callback if one is given, then start.
Channel A before channel B is the model's choice, log 13. -/
def canonicalStart (us : Word) (dutyA dutyB : Option Nat) (cb : Option Word) : List Cycle :=
  (ApiOp.initialise us).expand
    ++ (dutyA.elim [] fun d => (ApiOp.pwm 0 d none).expand)
    ++ (dutyB.elim [] fun d => (ApiOp.pwm 1 d none).expand)
    ++ (cb.elim [] fun h => (ApiOp.attachInterrupt h none).expand)
    ++ ApiOp.start.expand

end Sys2Proof.Machine
end

