-- ==== Sys2Proof/Safety.lean ====
section
/-! DEFINITION. The invariant of the block, and the preconditions under which the spec says a model may rely on what a run
shows (93_implementation_defined.md, "refuse"). -/

namespace Sys2Proof.Machine

/-- `PHASE` is a legal number of clock cycles to the next tick: at most 1024 always, and `1 .. DIV` while the counter is
clocked (R16, R24, R109, R110). -/
def State.phaseLegal (s : State) : Prop :=
  s.phase.toNat ≤ 1024 ∧ ∀ n, s.ecs.div? = some n → 1 ≤ s.phase.toNat ∧ s.phase.toNat ≤ n

/-- The states between two clock cycles: legal parameters, a legal phase, no load of `PHASE` noted, and an enabled
interrupt only with a stored callback (R7, R16, R32, R48, R110). -/
structure State.Inv (s : State) : Prop where
  cfg : s.cfg.WF
  phase : s.phaseLegal
  unnoted : s.phaseLoaded = false
  callback : s.ovie = true → s.cbv = true

/-- The host's access of a clock cycle, if it has one. -/
def Cycle.access? : Cycle → Option Access
  | .idle => none
  | .access a => some a
  | .rst a => a

/-- The clock cycle a step runs: the next one lined up, an idle one where none is. -/
def State.nextCycle (s : State) : Cycle := s.inputs.headD .idle

/-- The state with the next clock cycle taken from those lined up. -/
def State.popped (s : State) : State := s.setInputs s.inputs.tail

/-- The command whose `CMD` write the cycle is, if it is one (R37, R51, R129). -/
def Cycle.command? : Cycle → Option Instr
  | .access (.write off size w) =>
    if off = 0 ∧ size = .word then
      match decodeWord w with
      | .ok i => some i
      | .error _ => none
    else none
  | _ => none

/-- The cycle asserts `rst` (R129). -/
def Cycle.isRst : Cycle → Bool
  | .rst _ => true
  | _ => false

/-- The cycle is a reserved command: the case U9 of 93_implementation_defined.md. -/
def Cycle.reserved : Cycle → Bool
  | .access (.write off size w) =>
    if off = 0 ∧ size = .word then
      match decodeWord w with
      | .ok _ => false
      | .error _ => true
    else false
  | _ => false

/-- A clock cycle no proof need avoid: its access, if it has one of the block, has the admitted form (U12), it is no reserved command (U9), and
the counter is not clocked with a reload value of 0 (U14). -/
def State.safeCycle (s : State) (c : Cycle) : Bool :=
  c.access?.all (fun a => !a.inWindow || a.admitted) && !c.reserved && !(decide (s.ecs ≠ .none) && decide (s.reload = 0))

/-- The clock cycles the host has from one overflow event to acknowledge it before the next (R136): a whole counting cycle,
one tick where `RELOAD` is 0; none where the counter does not move. -/
def State.ackBound (s : State) : Option Nat :=
  s.ecs.div?.map fun n => if s.reload = 0 then n else 2 * s.reload.toNat * n

/-- `PHASE <- draw(1 .. DIV(PSEL))` if `PSEL != 0`, nothing otherwise, as a relation: the draw is SOME element of its set
(R14, R109). -/
def PhaseDrawn (s t : State) : Prop :=
  (s.psel.div? = none ∧ t = s) ∨
    ∃ d k n, s.psel.div? = some d ∧ 1 ≤ k ∧ k ≤ d ∧
      t = { s with phase := BitVec.ofNat 11 k, phaseLoaded := true, draws := n }

/-- `apply_period(ARG_PERIOD)` as a relation: the configuration becomes the calculator's result, and `PHASE` becomes SOME
element of `1 .. DIV(c)` exactly if a counting block changes its selector; nothing else changes (R78). -/
def PeriodApplied (s t : State) : Prop :=
  let c := (periodConfig s.cfg.clkHz s.argPeriod.toNat).1
  let r := (periodConfig s.cfg.clkHz s.argPeriod.toNat).2
  (¬ (s.run = .counting ∧ c ≠ s.psel) ∧ t = { s with psel := c, reload := r }) ∨
    ∃ d k n, s.run = .counting ∧ c ≠ s.psel ∧ c.div? = some d ∧ 1 ≤ k ∧ k ≤ d ∧
      t = { s with psel := c, reload := r, phase := BitVec.ofNat 11 k, phaseLoaded := true, draws := n }

/-- The bits of a command word that its command uses, the opcode field included (R68, R71). -/
def usedBits (w : Word) : Word :=
  match (fieldOp w).toNat with
  | 0x7 => 0x0007FF7F
  | 0x8 => 0x0007FF6F
  | 0x9 => 0x0000006F
  | 0xA => 0x0000001F
  | _ => 0x0000000F

/-- A tick in this state raises an overflow event, whether or not one is pending. -/
def State.tickOverflows (s : State) : Bool := (s.setOvf false).tick.ovf

/-- The clock's part of the cycle that begins with this state's commit done holds a tick (R110). -/
def State.ticksNow (s : State) : Bool := s.ecs.div?.isSome && !s.phaseLoaded && decide (s.phase = 1)

/-- The command computes a new period (R78, R80, R99, R103): it may write `PSEL` and `RELOAD`. -/
def periodCommand (i : Instr) : Bool :=
  match i with
  | .init | .setperiod => true
  | .pwm p ch _ => p && (channelOf ch).isSome
  | .attach p => p
  | .start | .stop | .restart | .resume | .setduty _ _ | .dispwm _ | .detach => false

end Sys2Proof.Machine
end

