-- ==== Sys2Proof/Certificates/Slice0/Obligations.lean ====
section
/-! DEFINITION. The statements for the provers: what the numbered rules of the spec say of the block. A next state written
out as `{ s with … }` says the frame as well: every element not named keeps its value. -/

open Sys2Proof Sys2Proof.Machine

/-! ## Encoding (30_encoding.md) -/

/-- R75: the words the spec writes out, both ways, and the two it writes out as having no effect or as reserved. -/
def Obligations.WrittenWordsDecode : Prop :=
  (encode (.pwm false 0 512) = 0x00020007 ∧ decodeWord 0x00020007 = .ok (.pwm false 0 512)) ∧
  (encode (.pwm true 0 512) = 0x00020017 ∧ decodeWord 0x00020017 = .ok (.pwm true 0 512)) ∧
  (encode (.pwm false 1 256) = 0x00010027 ∧ decodeWord 0x00010027 = .ok (.pwm false 1 256)) ∧
  (encode (.setduty 1 1023) = 0x0003FF28 ∧ decodeWord 0x0003FF28 = .ok (.setduty 1 1023)) ∧
  (encode (.setduty 0 1024) = 0x00040008 ∧ decodeWord 0x00040008 = .ok (.setduty 0 1024)) ∧
  (encode (.dispwm 1) = 0x00000029 ∧ decodeWord 0x00000029 = .ok (.dispwm 1)) ∧
  (encode (.setduty 2 512) = 0x00020048 ∧ decodeWord 0x00020048 = .ok (.setduty 2 512)) ∧
  (∀ s, exec (.setduty 2 512) s = .next s) ∧
  decodeWord 0x0000000C = .error (.reserved 0xC) ∧
  decodeWord 0xFFF80083 = .ok .start

/-- Decoding the word, or the byte lanes, of any well-formed command gives the command back, every operand at every value
the format admits (R64, R65, R66, R72). -/
def Obligations.DecodeOfEncodeIsTheCommand : Prop :=
  ∀ (i : Instr) (rest : List Byte), i.wellFormed = true →
    decodeWord (encode i) = .ok i ∧ decodeBytes (encodeBytes i ++ rest) = .ok (i, rest)

/-- The decoder looks at `w & 0xF` alone to select: 1 to 11 give a well-formed command of that opcode, the rest are
rejected by name as reserved (R68, R70). -/
def Obligations.DecoderFollowsTheOpcodeMap : Prop :=
  ∀ w : Word,
    (1 ≤ (w &&& 0xF).toNat ∧ (w &&& 0xF).toNat ≤ 11 →
      ∃ i, decodeWord w = .ok i ∧ i.wellFormed = true ∧ (opcode i).toNat = (w &&& 0xF).toNat) ∧
    (¬ (1 ≤ (w &&& 0xF).toNat ∧ (w &&& 0xF).toNat ≤ 11) →
      ∃ op : BitVec 4, op.toNat = (w &&& 0xF).toNat ∧ decodeWord w = .error (.reserved op))

/-- R71: a command word with any value in the bits its command ignores behaves as the same word with them zero. -/
def Obligations.IgnoredBitsDoNotMatter : Prop :=
  ∀ (w : Word) (s : State),
    decodeWord w = decodeWord (w &&& usedBits w) ∧ executeCommand w s = executeCommand (w &&& usedBits w) s

/-- R72: the word of every assembler spelling, and what an assembler refuses. -/
def Obligations.AssemblerWordsAreAsListed : Prop :=
  encode .init = 0x00000001 ∧ encode .setperiod = 0x00000002 ∧ encode .start = 0x00000003 ∧ encode .stop = 0x00000004 ∧
  encode .restart = 0x00000005 ∧ encode .resume = 0x00000006 ∧ encode (.attach false) = 0x0000000A ∧
  encode (.attach true) = 0x0000001A ∧ encode .detach = 0x0000000B ∧
  (∀ ch duty : Nat, ch ≤ 3 → duty ≤ 2047 →
    encode (.pwm false ch duty) = 0x7#32 ||| BitVec.ofNat 32 ch <<< 5 ||| BitVec.ofNat 32 duty <<< 8 ∧
    encode (.pwm true ch duty) = 0x17#32 ||| BitVec.ofNat 32 ch <<< 5 ||| BitVec.ofNat 32 duty <<< 8 ∧
    encode (.setduty ch duty) = 0x8#32 ||| BitVec.ofNat 32 ch <<< 5 ||| BitVec.ofNat 32 duty <<< 8 ∧
    encode (.dispwm ch) = 0x9#32 ||| BitVec.ofNat 32 ch <<< 5) ∧
  (∀ (p : Bool) (ch duty : Nat),
    ((Instr.pwm p ch duty).wellFormed = true ↔ ch ≤ 3 ∧ duty ≤ 2047) ∧
    ((Instr.setduty ch duty).wellFormed = true ↔ ch ≤ 3 ∧ duty ≤ 2047) ∧
    ((Instr.dispwm ch).wellFormed = true ↔ ch ≤ 3)) ∧
  channelOf 0 = some .A ∧ channelOf 1 = some .B

/-- Byte lane `k` of the register at a window offset carries its bits `[8k+7:8k]` (R52). -/
def Obligations.ByteLanesAreLittleEndian : Prop :=
  ∀ (s : State) (off k i : Nat), off % 4 = 0 → k < 4 → i < 8 →
    (s.laneByte (off + k)).getLsbD i = (s.regRead off).getLsbD (8 * k + i)

/-! ## Steps and bus accesses (20_memory.md) -/

/-- A step whose clock cycle is a `CMD` write of a word that decodes runs exactly that command, in the state with the cycle
taken from the host's list, and then the block's clock (R37, R58, R59, R69); `withFetchWord` lines up just that write. -/
def Obligations.StepRunsTheDecodedCommand : Prop :=
  (∀ (s : State) (w : Word) (i : Instr) (rest : List Cycle),
    s.inputs = cmdWrite w :: rest → decodeWord w = .ok i →
    ∃ t, exec i { s with inputs := rest, rdata := none } = .next t ∧ step s = .next t.clockCycle) ∧
  (∀ (s : State) (w : Word), s.withFetchWord 32 w.toNat = { s with inputs := cmdWrite w :: s.inputs })

/-- R70: a reserved command has no effect on any state: of its step, only the clock's part remains. That the
model runs it instead of refusing it is its choice (log 7). -/
def Obligations.ReservedCommandHasNoEffect : Prop :=
  ∀ (s : State) (w : Word) (rest : List Cycle), s.inputs = cmdWrite w :: rest →
    ((fieldOp w).toNat = 0 ∨ 12 ≤ (fieldOp w).toNat) →
    executeCommand w s = .next s ∧ step s = .next ({ s with inputs := rest, rdata := none } : State).clockCycle

/-- No command and no access fails: every step answers a next state, and one whose cycle has an access outside the window,
which is outside the block, is the block's clock alone (R45, R107, R110). That the block answers no word to such a read is the
model's choice (log 9). -/
def Obligations.EveryStepAnswersANextState : Prop :=
  (∀ s : State, ∃ t, step s = .next t) ∧
  ∀ (s : State) (off : Int) (size : Size) (v : Word) (rest : List Cycle), off < 0 ∨ 64 ≤ off →
    s.inputs = .access (.write off size v) :: rest ∨ s.inputs = .access (.read off size) :: rest →
    step s = .next ({ s with inputs := rest, rdata := none } : State).clockCycle

/-- R51: inside the window, an access of one or two bytes or at an offset that is no multiple of 4 is not admitted: a write
is ignored, a read returns 0, with no side effect and no error. That the model runs it instead of refusing it is its choice
(log 8). -/
def Obligations.NonAdmittedAccessIsInert : Prop :=
  ∀ (s : State) (off : Int) (size : Size) (v : Word) (rest : List Cycle),
    0 ≤ off → off < 64 → (size ≠ .word ∨ off % 4 ≠ 0) →
    (s.inputs = .access (.write off size v) :: rest →
      step s = .next ({ s with inputs := rest, rdata := none } : State).clockCycle) ∧
    (s.inputs = .access (.read off size) :: rest →
      step s = .next ({ s with inputs := rest, rdata := some 0 } : State).clockCycle)

/-- R53: what an admitted write does at every offset of the window. -/
def Obligations.AdmittedWriteEffects : Prop :=
  ∀ (s : State) (v : Word),
    accessBlock (.write 0x00 .word v) s = executeCommand v { s with rdata := none } ∧
    accessBlock (.write 0x04 .word v) s = .next { s with rdata := none, argPeriod := v } ∧
    accessBlock (.write 0x08 .word v) s = .next { s with rdata := none, argHandle := v } ∧
    (v.getLsbD 0 = true → accessBlock (.write 0x24 .word v) s = .next { s with rdata := none, ovf := false }) ∧
    (v.getLsbD 0 = false → accessBlock (.write 0x24 .word v) s = .next { s with rdata := none }) ∧
    ∀ off : Nat, off < 64 → off % 4 = 0 → off ≠ 0x00 → off ≠ 0x04 → off ≠ 0x08 → off ≠ 0x24 →
      accessBlock (.write off .word v) s = .next { s with rdata := none }

/-- R54, R39: the word an admitted read returns at every offset of the window, bit by bit or as a number; it changes
nothing. -/
def Obligations.AdmittedReadValues : Prop :=
  ∀ s : State,
    (∀ off : Nat, off < 64 → off % 4 = 0 →
      accessBlock (.read off .word) s = .next { s with rdata := some (s.regRead off) }) ∧
    s.regRead 0x04 = s.argPeriod ∧ s.regRead 0x08 = s.argHandle ∧ s.regRead 0x20 = s.handle ∧
    ((s.regRead 0x0C).toNat < 1024 ∧
      ((s.regRead 0x0C).getLsbD 0 = true ↔ s.run = .counting) ∧
      (s.regRead 0x0C).getLsbD 1 = s.ovf ∧ (s.regRead 0x0C).getLsbD 2 = s.ovie ∧ (s.regRead 0x0C).getLsbD 3 = s.cbv ∧
      (s.regRead 0x0C).getLsbD 4 = s.chA.en ∧ (s.regRead 0x0C).getLsbD 5 = s.chB.en ∧
      (s.regRead 0x0C).getLsbD 6 = s.chA.pindir ∧ (s.regRead 0x0C).getLsbD 7 = s.chB.pindir ∧
      (s.regRead 0x0C).getLsbD 8 = (s.ovf && s.ovie) ∧
      ((s.regRead 0x0C).getLsbD 9 = true ↔ s.psel ≠ .none)) ∧
    (s.regRead 0x10).toNat = 2 ^ 24 + 2 ^ 16 * s.psel.code.toNat + s.reload.toNat ∧
    (s.regRead 0x14).toNat = s.chA.cmp.toNat ∧ (s.regRead 0x18).toNat = s.chB.cmp.toNat ∧
    (s.regRead 0x1C).toNat = (if s.dir = .down then 2 ^ 16 else 0) + s.cnt.toNat ∧
    (∀ off : Nat, off % 4 = 0 → (off = 0x00 ∨ 0x24 ≤ off) → s.regRead off = 0)

/-- R129: in a cycle with `rst` asserted every element takes its reset value, the access has no effect and a read of the
window returns 0. The elements whose reset value R47 leaves unspecified are not constrained. -/
def Obligations.ResetCycleGivesResetValues : Prop :=
  ∀ (s : State) (a : Option Access) (rest : List Cycle), s.inputs = .rst a :: rest →
    ∃ t, step s = .next t ∧ t.psel = .none ∧ t.run = .stopped ∧ t.chA.en = false ∧ t.chB.en = false ∧
      t.chA.pindir = false ∧ t.chB.pindir = false ∧ t.ovf = false ∧ t.ovie = false ∧ t.cbv = false ∧ t.argPeriod = 0 ∧
      t.argHandle = 0 ∧ t.phase.toNat ≤ 1024 ∧ t.cfg = s.cfg ∧ t.inputs = rest ∧
      (∀ off size, a = some (.read off size) → 0 ≤ off → off < 64 → t.rdata = some 0)

/-- R130: after reset the block is Stopped and unconfigured, its interrupt disabled, no callback stored, no channel enabled
or driving a pin, no pin request made; and it does nothing until the host writes a command: whatever else the host
accesses, nothing but the operand registers and the model's own host fields changes. -/
def Obligations.ResetIsQuiescent : Prop :=
  State.reset.run = .stopped ∧ State.reset.psel = .none ∧ (State.reset.regRead 0x0C).getLsbD 9 = false ∧
  State.reset.ovie = false ∧ State.reset.irq = false ∧ State.reset.cbv = false ∧
  (∀ x, (State.reset.chan x).en = false ∧ State.reset.oe x = false ∧ State.reset.out x = none ∧
    (State.reset.chan x).pindir = false) ∧
  (∀ k : Nat, Host.Core.run Sys2Proof.core k State.reset = .next State.reset) ∧
  ∀ (cs : List Cycle) (k : Nat) (t : State), (∀ c ∈ cs, c.command? = none ∧ c.isRst = false) →
    Host.Core.run Sys2Proof.core k { State.reset with inputs := cs } = .next t →
    t = { State.reset with argPeriod := t.argPeriod, argHandle := t.argHandle, inputs := t.inputs, rdata := t.rdata }

/-- R120: in one clock cycle the host access goes first, then the tick. -/
def Obligations.AccessGoesBeforeTheTick : Prop :=
  (∀ (s : State) (v : Word) (rest : List Cycle), s.inputs = wr .irqAck v :: rest → v.getLsbD 0 = true →
    s.ticksNow = true → s.tickOverflows = true → ∃ t, step s = .next t ∧ t.ovf = true) ∧
  (∀ (s : State) (rest : List Cycle), s.inputs = wrCmd .detach :: rest →
    s.ticksNow = true → s.tickOverflows = true → ∃ t, step s = .next t ∧ t.ovf = true ∧ t.irq = false) ∧
  (∀ (s : State) (rest : List Cycle), s.inputs = wrCmd .start :: rest →
    ∃ t, step s = .next t ∧ t.cnt = 0 ∧ t.dir = .up ∧ t.ovf = false)

/-! ## Commands: result, frame and completion -/

/-- R80: `INIT`. The counter's value and direction after it are SOME values; a period is configured after it. -/
def Obligations.InitConfiguresAndStops : Prop :=
  ∀ s : State, (periodConfig s.cfg.clkHz s.argPeriod.toNat).1 ≠ .none ∧ ∃ (c : Half) (d : Dir) (n : Nat),
    exec .init s = .next { s with
      psel := (periodConfig s.cfg.clkHz s.argPeriod.toNat).1,
      reload := (periodConfig s.cfg.clkHz s.argPeriod.toNat).2,
      run := .stopped, cnt := c, dir := d, draws := n }

/-- R81, R78: `SETPERIOD` applies the period of `ARG_PERIOD` and writes nothing else. -/
def Obligations.SetperiodAppliesThePeriod : Prop :=
  ∀ s : State, ∃ t, exec .setperiod s = .next t ∧ PeriodApplied s t

/-- R89: `START`. -/
def Obligations.StartCountsFromZero : Prop :=
  ∀ s : State, ∃ t, exec .start s = .next t ∧
    PhaseDrawn { s with cnt := 0, dir := .up, ovf := false, run := .counting } t

/-- R90: `STOP` writes `RUN` only. -/
def Obligations.StopWritesRunOnly : Prop :=
  ∀ s : State, exec .stop s = .next { s with run := .stopped }

/-- R91: `RESTART` is semantically identical to `START`, and completes as it does. -/
def Obligations.RestartIsStart : Prop :=
  ∀ s : State, exec .restart s = exec .start s ∧
    ∃ t, exec .restart s = .next t ∧ PhaseDrawn { s with cnt := 0, dir := .up, ovf := false, run := .counting } t

/-- R92: `RESUME` from Stopped and from Counting. -/
def Obligations.ResumeCountsOn : Prop :=
  ∀ s : State,
    (s.run = .stopped → ∃ t, exec .resume s = .next t ∧ PhaseDrawn { s with run := .counting } t) ∧
    (s.run = .counting → exec .resume s = .next s)

/-- R99: `PWM` on a recognized channel: the period first where `P` is 1, then the compare value against the reload value as
just written, the enable and the pin request; no effect on an unrecognized one. -/
def Obligations.PwmEnablesTheChannel : Prop :=
  ∀ (s : State) (p : Bool) (duty : Nat), ∃ u : State,
    (if p = true then PeriodApplied s u else u = s) ∧
    exec (.pwm p 0 duty) s
      = .next { u with chA := { en := true, cmp := conv s.cfg.fullScale u.reload duty, pindir := true } } ∧
    exec (.pwm p 1 duty) s
      = .next { u with chB := { en := true, cmp := conv s.cfg.fullScale u.reload duty, pindir := true } } ∧
    ∀ ch, 2 ≤ ch → exec (.pwm p ch duty) s = .next s

/-- R100: `SETDUTY` writes the compare value only; no effect on an unrecognized channel. -/
def Obligations.SetdutyWritesTheCompareOnly : Prop :=
  ∀ (s : State) (duty : Nat),
    exec (.setduty 0 duty) s = .next { s with chA := { s.chA with cmp := conv s.cfg.fullScale s.reload duty } } ∧
    exec (.setduty 1 duty) s = .next { s with chB := { s.chB with cmp := conv s.cfg.fullScale s.reload duty } } ∧
    ∀ ch, 2 ≤ ch → exec (.setduty ch duty) s = .next s

/-- R101: `DISPWM` writes the channel's enable only; no effect on an unrecognized channel. -/
def Obligations.DispwmWritesTheEnableOnly : Prop :=
  ∀ s : State,
    exec (.dispwm 0) s = .next { s with chA := { s.chA with en := false } } ∧
    exec (.dispwm 1) s = .next { s with chB := { s.chB with en := false } } ∧
    ∀ ch, 2 ≤ ch → exec (.dispwm ch) s = .next s

/-- R67: with an unrecognized channel a PWM command has no effect at all, the period included; and the channel is the one
operand that can do this. -/
def Obligations.UnrecognizedChannelHasNoEffect : Prop :=
  ∀ (s : State) (p : Bool) (ch duty : Nat), 2 ≤ ch →
    exec (.pwm p ch duty) s = .next s ∧ exec (.setduty ch duty) s = .next s ∧ exec (.dispwm ch) s = .next s

/-- R103: `ATTACH` stores the handle, whatever its value, and enables the interrupt, the period first where `P` is 1; a
pending overflow stays and raises `IRQ` at once. -/
def Obligations.AttachStoresAndEnables : Prop :=
  ∀ (s : State) (p : Bool), ∃ u t : State,
    (if p = true then PeriodApplied s u else u = s) ∧ exec (.attach p) s = .next t ∧
    t = { u with handle := s.argHandle, cbv := true, ovie := true } ∧ t.ovf = s.ovf ∧ t.irq = s.ovf

/-- R104: `DETACH` writes `OVIE` only. -/
def Obligations.DetachWritesTheEnableOnly : Prop :=
  ∀ s : State, ∃ t, exec .detach s = .next t ∧ t = { s with ovie := false } ∧ t.irq = false

/-- R95: the run-state transitions of every command, with the counter and the pending overflow. -/
def Obligations.RunStateTransitionTable : Prop :=
  ∀ (i : Instr) (s : State), ∃ t, exec i s = .next t ∧
    match i with
    | .init => t.run = .stopped ∧ t.ovf = s.ovf
    | .start | .restart => t.run = .counting ∧ t.cnt = 0 ∧ t.dir = .up ∧ t.ovf = false
    | .stop => t.run = .stopped ∧ t.cnt = s.cnt ∧ t.dir = s.dir ∧ t.ovf = s.ovf
    | .resume => t.run = .counting ∧ t.cnt = s.cnt ∧ t.dir = s.dir ∧ t.ovf = s.ovf ∧ (s.run = .counting → t = s)
    | .setperiod | .pwm _ _ _ | .setduty _ _ | .dispwm _ | .attach _ | .detach =>
      t.run = s.run ∧ t.cnt = s.cnt ∧ t.dir = s.dir ∧ t.ovf = s.ovf

/-- R86: the same request twice gives the same configuration; the second `SETPERIOD` changes nothing at all. -/
def Obligations.SamePeriodTwiceIsIdempotent : Prop :=
  ∀ s : State,
    (∃ t, exec .setperiod s = .next t ∧ exec .setperiod t = .next t) ∧
    (∃ t u, exec .init s = .next t ∧ exec .init t = .next u ∧ u.psel = t.psel ∧ u.reload = t.reload)

/-- R93: `STOP`, then any clock cycles with no reset, no period command and no other command that moves the counter or the
run state, then `RESUME`: the configuration and the counter are those `STOP` left, and the block counts. -/
def Obligations.StopThenResumeKeepsTheClock : Prop :=
  ∀ (s : State) (cs : List Cycle), s.inputs = wrCmd .stop :: (cs ++ [wrCmd .resume]) →
    (∀ c ∈ cs, c.isRst = false ∧ ∀ i, c.command? = some i →
      periodCommand i = false ∧ i ≠ .start ∧ i ≠ .restart ∧ i ≠ .resume) →
    ∃ t u, Host.Core.run Sys2Proof.core 1 s = .next t ∧ t.run = .stopped ∧ t.psel = s.psel ∧ t.reload = s.reload ∧
      t.cnt = s.cnt ∧ t.dir = s.dir ∧
      Host.Core.run Sys2Proof.core (cs.length + 2) s = .next u ∧ u.run = .counting ∧ u.psel = s.psel ∧
      u.reload = s.reload ∧ u.cnt = s.cnt ∧ u.dir = s.dir

/-! ## Whole-machine rules: who may write what -/

/-- R19: only the period calculator and reset write the clock configuration, and the calculator writes its result. -/
def Obligations.OnlyTheCalculatorWritesTheClock : Prop :=
  ∀ s t : State, step s = .next t →
    (t.psel = s.psel ∧ t.reload = s.reload) ∨ s.nextCycle.isRst = true ∨
    ∃ i, s.nextCycle.command? = some i ∧ periodCommand i = true ∧
      (t.psel, t.reload) = periodConfig s.cfg.clkHz s.argPeriod.toNat

/-- R21, R23: who may write `RUN`, and who `CNT` and `DIR`; a tick, where one is taken, acts on the reload value the
commit of the same cycle left. -/
def Obligations.OnlyTheseWriteRunAndCounter : Prop :=
  (∀ s t : State, step s = .next t →
    (t.run = s.run ∨ s.nextCycle.isRst = true ∨
      ∃ i, s.nextCycle.command? = some i ∧ i ∈ [Instr.init, .start, .stop, .restart, .resume]) ∧
    ((t.cnt = s.cnt ∧ t.dir = s.dir) ∨ s.nextCycle.isRst = true ∨
      (∃ i, s.nextCycle.command? = some i ∧ i ∈ [Instr.init, .start, .restart]) ∨
      (t.run = .counting ∧ t.psel ≠ .none ∧ s.phase = 1 ∧
        t.cnt = ({ s with reload := t.reload } : State).tick.cnt ∧
        t.dir = ({ s with reload := t.reload } : State).tick.dir))) ∧
  (∀ s : State, ∃ t u, exec .stop s = .next t ∧ t.cnt = s.cnt ∧ t.dir = s.dir ∧
    exec .resume s = .next u ∧ u.cnt = s.cnt ∧ u.dir = s.dir)

/-- R26, R27: who may write a channel's enable, compare value and pin request. -/
def Obligations.OnlyTheseWriteAChannel : Prop :=
  ∀ (s t : State) (x : ChannelId), step s = .next t →
    (s.nextCycle.isRst = true → (t.chan x).en = false ∧ (t.chan x).pindir = false) ∧
    (s.nextCycle.isRst = false →
      ((s.chan x).pindir = true → (t.chan x).pindir = true) ∧
      ((s.chan x).pindir = false → (t.chan x).pindir = true →
        ∃ p ch duty, s.nextCycle.command? = some (.pwm p ch duty) ∧ channelOf ch = some x) ∧
      ((s.chan x).en = false → (t.chan x).en = true →
        ∃ p ch duty, s.nextCycle.command? = some (.pwm p ch duty) ∧ channelOf ch = some x) ∧
      ((s.chan x).en = true → (t.chan x).en = false →
        ∃ ch, s.nextCycle.command? = some (.dispwm ch) ∧ channelOf ch = some x) ∧
      ((t.chan x).cmp ≠ (s.chan x).cmp →
        ∃ ch duty, channelOf ch = some x ∧
          (s.nextCycle.command? = some (.setduty ch duty) ∨ ∃ p, s.nextCycle.command? = some (.pwm p ch duty))))

/-- R28: who may clear `OVF` and what sets it. -/
def Obligations.OnlyTheseWriteThePendingFlag : Prop :=
  (∀ s t : State, step s = .next t →
    (s.ovf = true → t.ovf = false →
      s.nextCycle.isRst = true ∨ s.nextCycle.command? = some .start ∨ s.nextCycle.command? = some .restart ∨
      ∃ v : Word, s.nextCycle = wr .irqAck v ∧ v.getLsbD 0 = true) ∧
    (s.ovf = false → t.ovf = true →
      t.run = .counting ∧ t.psel ≠ .none ∧ s.phase = 1 ∧
        ({ s with reload := t.reload } : State).tickOverflows = true)) ∧
  (∀ (s : State) (i : Instr), i ≠ .start → i ≠ .restart → ∃ t, exec i s = .next t ∧ t.ovf = s.ovf)

/-- R29, R30: who may write the interrupt enable and the stored callback. -/
def Obligations.OnlyTheseWriteTheCallback : Prop :=
  ∀ s t : State, step s = .next t →
    (s.nextCycle.isRst = true → t.ovie = false ∧ t.cbv = false) ∧
    (s.nextCycle.isRst = false →
      (s.ovie = false → t.ovie = true → ∃ p, s.nextCycle.command? = some (.attach p)) ∧
      (s.ovie = true → t.ovie = false → s.nextCycle.command? = some .detach) ∧
      (s.cbv = true → t.cbv = true) ∧
      ((t.cbv ≠ s.cbv ∨ t.handle ≠ s.handle) →
        t.cbv = true ∧ t.handle = s.argHandle ∧ ∃ p, s.nextCycle.command? = some (.attach p)))

/-- R33: the operand registers are written by the host alone; no command writes them. -/
def Obligations.NoCommandWritesTheOperands : Prop :=
  (∀ (s : State) (i : Instr), ∃ t, exec i s = .next t ∧ t.argPeriod = s.argPeriod ∧ t.argHandle = s.argHandle) ∧
  (∀ s t : State, step s = .next t → s.nextCycle.isRst = false →
    (t.argPeriod = s.argPeriod ∨ s.nextCycle = wr .argPeriod t.argPeriod) ∧
    (t.argHandle = s.argHandle ∨ s.nextCycle = wr .argHandle t.argHandle))

/-- The invariant of the block (legal parameters, a legal phase, no load of `PHASE` noted between cycles, an enabled
interrupt only with a stored callback) holds after reset. -/
def Obligations.ResetMeetsTheInvariant : Prop := State.reset.Inv

/-- Every step keeps the invariant, from every state that meets it (R16, R24, R32, R109, R110), and no step changes the
parameters. -/
def Obligations.EveryStepKeepsTheInvariant : Prop :=
  ∀ s t : State, step s = .next t → (s.Inv → t.Inv) ∧ t.cfg = s.cfg

/-- R32: in every state reachable from reset, whatever the host does, `OVIE = 1` implies `CBV = 1`, hence `IRQ = 1`
implies a callback is stored. -/
def Obligations.EnabledInterruptHasACallback : Prop :=
  ∀ (cs : List Cycle) (k : Nat) (t : State),
    Host.Core.run Sys2Proof.core k { State.reset with inputs := cs } = .next t →
    (t.ovie = true → t.cbv = true) ∧ (t.irq = true → t.cbv = true)

/-- R105: after `DETACH`, and until the next `ATTACH`, `IRQ` is 0 whatever the counter and the host do. -/
def Obligations.DetachSilencesTheInterrupt : Prop :=
  ∀ (s : State) (cs : List Cycle) (k : Nat), s.inputs = wrCmd .detach :: cs →
    (∀ c ∈ cs.take k, ∀ p, c.command? ≠ some (.attach p)) →
    ∃ t, Host.Core.run Sys2Proof.core (k + 1) s = .next t ∧ t.irq = false

/-! ## The period calculator (40_period.md) -/

/-- R76: the product and the quotient, computed in 64 bits, are exact. -/
def Obligations.CyclesFitSixtyFourBits : Prop :=
  ∀ clk us : Nat, clk < 2 ^ 32 → us < 2 ^ 32 →
    clk * us < 2 ^ 64 ∧
    (BitVec.ofNat 64 clk * BitVec.ofNat 64 us / 2000000#64).toNat = cycles clk us ∧
    cycles clk us * 2000000 ≤ clk * us ∧ clk * us < (cycles clk us + 1) * 2000000

/-- R82, R85: a request that fits the smallest divisor gets it, with `cycles` as the reload value; a request too long for
the largest is clamped, not wrapped. -/
def Obligations.CalculatorEndsOfTheRange : Prop :=
  ∀ clk us : Nat,
    (cycles clk us < 65536 → (periodConfig clk us).1 = .div1 ∧ (periodConfig clk us).2.toNat = cycles clk us) ∧
    (67108864 ≤ cycles clk us → periodConfig clk us = (.div1024, 65535))

/-- R83: below the clamp the selected code is the smallest one with a quotient below 65536, and the reload value is that
quotient; from the clamp on it is 5 with 65535; and a quotient is below 65536 exactly if `cycles` is below 65536
divisors. -/
def Obligations.CalculatorTakesTheSmallestDivisor : Prop :=
  ∀ clk us : Nat,
    (cycles clk us < 67108864 → ∃ n, (periodConfig clk us).1.div? = some n ∧ cycles clk us / n < 65536 ∧
      (periodConfig clk us).2.toNat = cycles clk us / n ∧
      ∀ (c : Psel) (m : Nat), c.div? = some m → cycles clk us / m < 65536 →
        (periodConfig clk us).1.code.toNat ≤ c.code.toNat) ∧
    (67108864 ≤ cycles clk us → (periodConfig clk us).1.code = 5 ∧ (periodConfig clk us).2.toNat = 65535) ∧
    (∀ (c : Psel) (m : Nat), c.div? = some m → (cycles clk us / m < 65536 ↔ cycles clk us < 65536 * m))

/-- R84: a longer request never gets a smaller selector code, and within one code never a smaller reload value. -/
def Obligations.CalculatorIsMonotone : Prop :=
  ∀ clk us1 us2 : Nat, us1 ≤ us2 →
    (periodConfig clk us1).1.code.toNat ≤ (periodConfig clk us2).1.code.toNat ∧
    ((periodConfig clk us1).1 = (periodConfig clk us2).1 →
      (periodConfig clk us1).2.toNat ≤ (periodConfig clk us2).2.toNat)

/-- R88: the six ranges of requests at 16 MHz. -/
def Obligations.CalculatorRangesAtSixteenMegahertz : Prop :=
  ∀ us : Nat, us < 2 ^ 32 →
    cycles 16000000 us = 8 * us ∧
    (us ≤ 8191 → (periodConfig 16000000 us).1.code = 1 ∧ (periodConfig 16000000 us).2.toNat = 8 * us) ∧
    (8192 ≤ us → us ≤ 65535 → (periodConfig 16000000 us).1.code = 2 ∧ (periodConfig 16000000 us).2.toNat = us) ∧
    (65536 ≤ us → us ≤ 524287 → (periodConfig 16000000 us).1.code = 3 ∧ (periodConfig 16000000 us).2.toNat = us / 8) ∧
    (524288 ≤ us → us ≤ 2097151 →
      (periodConfig 16000000 us).1.code = 4 ∧ (periodConfig 16000000 us).2.toNat = us / 32) ∧
    (2097152 ≤ us → us ≤ 8388607 →
      (periodConfig 16000000 us).1.code = 5 ∧ (periodConfig 16000000 us).2.toNat = us / 128) ∧
    (8388608 ≤ us → (periodConfig 16000000 us).1.code = 5 ∧ (periodConfig 16000000 us).2.toNat = 65535)

/-! ## The duty converter (42_pwm.md) -/

/-- R97: the compare value is `r * d' / FULL_SCALE` rounded to nearest, a tie upwards: twice the error lies above
`-FULL_SCALE` and at most at `FULL_SCALE`; with 1023 it never reaches it, with 1024 it does. -/
def Obligations.ConverterRoundsToNearest : Prop :=
  conv .k1024 3 512 = 2 ∧ ∀ (fs : FullScale) (r : Half) (d : Nat),
    2 * (r.toNat * min d fs.value) < 2 * ((conv fs r d).toNat * fs.value) + fs.value ∧
    2 * ((conv fs r d).toNat * fs.value) ≤ 2 * (r.toNat * min d fs.value) + fs.value ∧
    (fs = .k1023 → 2 * ((conv fs r d).toNat * fs.value) ≠ 2 * (r.toNat * min d fs.value) + fs.value)

/-- R98: the ends of the duty range, a zero reload value, and monotonicity in both arguments. -/
def Obligations.ConverterProperties : Prop :=
  ∀ (fs : FullScale) (r r' : Half) (d d' : Nat),
    conv fs r 0 = 0 ∧ (fs.value ≤ d → conv fs r d = r) ∧ conv fs 0 d = 0 ∧ (conv fs r d).toNat ≤ r.toNat ∧
    (d ≤ d' → (conv fs r d).toNat ≤ (conv fs r d').toNat) ∧
    (r.toNat ≤ r'.toNat → (conv fs r d).toNat ≤ (conv fs r' d).toNat) ∧
    2 * (r.toNat * min d fs.value) ≤ 2 * ((conv fs r d).toNat * fs.value) + fs.value ∧
    2 * ((conv fs r d).toNat * fs.value) ≤ 2 * (r.toNat * min d fs.value) + fs.value

/-! ## Prescaler, counter and outputs (60_exceptions.md) -/

/-- R111, R112, R114: every case of a tick; it changes the counter and, at the end of a counting cycle, sets `OVF`,
pending or not. -/
def Obligations.TickCases : Prop :=
  ∀ s : State,
    (s.reload.toNat = 0 → s.tick = { s with cnt := 0, dir := .up, ovf := true }) ∧
    (1 ≤ s.reload.toNat → s.dir = .up → s.cnt.toNat < s.reload.toNat →
      ∃ c : Half, c.toNat = s.cnt.toNat + 1 ∧ s.tick = { s with cnt := c }) ∧
    (1 ≤ s.reload.toNat → s.dir = .up → s.reload.toNat ≤ s.cnt.toNat → 2 ≤ s.cnt.toNat →
      ∃ c : Half, c.toNat = s.cnt.toNat - 1 ∧ s.tick = { s with cnt := c, dir := .down }) ∧
    (1 ≤ s.reload.toNat → s.dir = .up → s.reload.toNat ≤ s.cnt.toNat → s.cnt.toNat ≤ 1 →
      s.tick = { s with cnt := 0, dir := .up, ovf := true }) ∧
    (1 ≤ s.reload.toNat → s.dir = .down → s.cnt.toNat ≤ 1 →
      s.tick = { s with cnt := 0, dir := .up, ovf := true }) ∧
    (1 ≤ s.reload.toNat → s.dir = .down → 2 ≤ s.cnt.toNat →
      ∃ c : Half, c.toNat = s.cnt.toNat - 1 ∧ s.tick = { s with cnt := c })

/-- R110, R22: a clock cycle: nothing while `ECS` is none, in particular while Counting with no period configured; nothing
more in the cycle that loaded `PHASE`; else the phase counts down and the tick falls where it reaches 0. -/
def Obligations.ClockCycleCases : Prop :=
  ∀ s : State,
    (s.run = .stopped ∨ s.psel = .none → s.clockCycle = { s with phaseLoaded := false }) ∧
    (s.phaseLoaded = true → s.clockCycle = { s with phaseLoaded := false }) ∧
    (∀ n, s.run = .counting → s.psel.div? = some n → s.phaseLoaded = false → s.phase.toNat = 1 →
      ∃ p : BitVec 11, p.toNat = n ∧ s.clockCycle = { s.tick with phase := p }) ∧
    (∀ n, s.run = .counting → s.psel.div? = some n → s.phaseLoaded = false → 2 ≤ s.phase.toNat →
      ∃ p : BitVec 11, p.toNat = s.phase.toNat - 1 ∧ s.clockCycle = { s with phase := p })

/-- R113: from `CNT = 0`, up, with a constant reload value `r >= 1`, the counter takes the values 1 to `r` and back to 0 on
the next `2r` ticks; the one overflow event is on the last of them, and the counter is then where it began. -/
def Obligations.CountingCycleOfTicks : Prop :=
  ∀ s : State, s.cnt = 0 → s.dir = .up → 1 ≤ s.reload.toNat →
    (∀ k, k ≤ 2 * s.reload.toNat →
      (State.tick^[k] s).cnt.toNat = (if k ≤ s.reload.toNat then k else 2 * s.reload.toNat - k)) ∧
    (∀ k, k < 2 * s.reload.toNat →
      (State.tick^[k] s).ovf = s.ovf ∧
      ((State.tick^[k] s).dir = .down ↔ s.reload.toNat < k)) ∧
    State.tick^[2 * s.reload.toNat] s = { s with ovf := true }

/-- R109, R110: while nothing is presented to a counting block with divisor `n`, the first tick comes when `PHASE` runs
out and the others exactly `n` clock cycles apart; the phase is legal wherever the invariant holds. -/
def Obligations.TicksAreADivisorApart : Prop :=
  ∀ (s : State) (n : Nat), s.inputs = [] → s.rdata = none → s.phaseLoaded = false → s.run = .counting →
    s.psel.div? = some n → 1 ≤ s.phase.toNat → s.phase.toNat ≤ n →
    (∀ j, j < s.phase.toNat → ∃ t : State, Host.Core.run Sys2Proof.core j s = .next t ∧
      t = { s with phase := BitVec.ofNat 11 (s.phase.toNat - j) }) ∧
    (∀ k j, j < n → ∃ t : State, Host.Core.run Sys2Proof.core (s.phase.toNat + k * n + j) s = .next t ∧
      t = { State.tick^[k + 1] s with phase := BitVec.ofNat 11 (n - j) })

/-- R94: after `START` or `RESTART` with `RELOAD = r >= 1` and a selector, and no later command, the first overflow event comes at the
`2r`-th tick, not before; a pending overflow from before is gone. `p` is the phase drawn. -/
def Obligations.FirstOverflowAfterStart : Prop :=
  ∀ (s : State) (n : Nat) (i : Instr), i = .start ∨ i = .restart → s.inputs = [wrCmd i] → s.psel.div? = some n → 1 ≤ s.reload.toNat →
    ∃ p, 1 ≤ p ∧ p ≤ n ∧
      (∀ j, j < p + (2 * s.reload.toNat - 1) * n →
        ∃ t, Host.Core.run Sys2Proof.core (j + 1) s = .next t ∧ t.ovf = false ∧ t.irq = false) ∧
      ∃ t, Host.Core.run Sys2Proof.core (p + (2 * s.reload.toNat - 1) * n + 1) s = .next t ∧ t.ovf = true ∧
        t.cnt = 0 ∧ t.irq = s.ovie

/-- R87: one counting cycle lasts `2 * r * DIV` clock cycles, at the end of which the block is where it began with the
overflow pending; and an unclamped configuration realises the request with less than one divisor missing. -/
def Obligations.CountingCycleOfClocks : Prop :=
  (∀ (s : State) (n : Nat), s.inputs = [] → s.rdata = none → s.phaseLoaded = false → s.run = .counting →
    s.psel.div? = some n → s.phase.toNat = n → s.cnt = 0 → s.dir = .up → 1 ≤ s.reload.toNat →
    (∀ j, j < 2 * s.reload.toNat * n → ∃ t, Host.Core.run Sys2Proof.core j s = .next t ∧ t.ovf = s.ovf) ∧
    Host.Core.run Sys2Proof.core (2 * s.reload.toNat * n) s = .next { s with ovf := true }) ∧
  (∀ clk us n : Nat, (periodConfig clk us).1.div? = some n → cycles clk us < 67108864 →
    (periodConfig clk us).2.toNat * n ≤ cycles clk us ∧ cycles clk us < ((periodConfig clk us).2.toNat + 1) * n ∧
    2 * (periodConfig clk us).2.toNat * n * 1000000 ≤ clk * us ∧
    2 * cycles clk us < 2 * (periodConfig clk us).2.toNat * n + 2 * n)

/-- R136, R112: from one overflow event to the next it is `ackBound` clock cycles, a whole counting cycle, or one tick where
`RELOAD` is 0; before that no event comes, and at its end the block is where it began with the overflow pending. -/
def Obligations.OverflowsAreTheAcknowledgeBoundApart : Prop :=
  ∀ (s : State) (n : Nat), s.inputs = [] → s.rdata = none → s.phaseLoaded = false → s.run = .counting →
    s.psel.div? = some n → s.phase.toNat = n → s.cnt = 0 → s.dir = .up →
    ∃ b, s.ackBound = some b ∧ b = (if s.reload.toNat = 0 then n else 2 * s.reload.toNat * n) ∧
      (∀ j, j < b → ∃ t, Host.Core.run Sys2Proof.core j s = .next t ∧ t.ovf = s.ovf) ∧
      Host.Core.run Sys2Proof.core b s = .next { s with ovf := true }

/-- R106, R31: the signals: the interrupt line is `OVF AND OVIE`, `OE_x` is `EN_x`, `PINDIR_x` is the stored request, each
for the pin its channel is bound to. -/
def Obligations.SignalsAreAsListed : Prop :=
  ∀ s : State, s.signals.irq = (s.ovf && s.ovie) ∧
    s.signals.pinA.pin = s.cfg.pinA ∧ s.signals.pinB.pin = s.cfg.pinB ∧
    s.signals.pinA.oe = s.chA.en ∧ s.signals.pinB.oe = s.chB.en ∧
    s.signals.pinA.pindir = s.chA.pindir ∧ s.signals.pinB.pindir = s.chB.pindir ∧
    s.signals.pinA.out = s.out .A ∧ s.signals.pinB.out = s.out .B

/-- R115, R117: an enabled channel drives its pin with `CNT < CMP_x`; a disabled one drives nothing. -/
def Obligations.OutputCompareLevel : Prop :=
  ∀ (s : State) (x : ChannelId),
    ((s.chan x).en = true → s.oe x = true ∧ s.out x = some (decide (s.cnt.toNat < (s.chan x).cmp.toNat))) ∧
    ((s.chan x).en = false → s.oe x = false ∧ s.out x = none)

/-- R116: the number of ticks of a counting cycle after which an enabled channel's output is 1, their symmetry about
`CNT = 0`, and how close their share comes to the duty asked for. -/
def Obligations.HighTicksOfACountingCycle : Prop :=
  ∀ (s : State) (x : ChannelId), s.cnt = 0 → s.dir = .up → 1 ≤ s.reload.toNat → (s.chan x).en = true →
    let r := s.reload.toNat
    let high := ((List.range (2 * r)).filter fun k => (State.tick^[k + 1] s).out x = some true).length
    ((s.chan x).cmp.toNat = 0 → high = 0) ∧
    (1 ≤ (s.chan x).cmp.toNat → (s.chan x).cmp.toNat ≤ r → high = 2 * (s.chan x).cmp.toNat - 1) ∧
    (r < (s.chan x).cmp.toNat → high = 2 * r) ∧
    (∀ k, k ≤ 2 * r → (State.tick^[k] s).out x = (State.tick^[2 * r - k] s).out x) ∧
    (∀ (fs : FullScale) (d : Nat), (s.chan x).cmp = conv fs s.reload d →
      high * fs.value ≤ 2 * r * min d fs.value + 2 * fs.value ∧
      2 * r * min d fs.value ≤ high * fs.value + 2 * fs.value)

/-! ## The host's side (R121, R133) -/

/-- R121: the dispatch delivers the stored handle exactly if a callback is stored, and acknowledges before: where no tick
falls into its three cycles, the pending overflow and the interrupt are gone after it. That the dispatch takes three consecutive
clock cycles with no other access between them, on which the last clause rests, is the model's choice, not R121's (log 13). -/
def Obligations.DispatchDeliversTheStoredHandle : Prop :=
  ∀ s : State, ∃ t : State,
    dispatch s = .next (t, if s.cbv = true then some s.handle else none) ∧
    t.ovie = s.ovie ∧ t.cbv = s.cbv ∧ t.handle = s.handle ∧ t.run = s.run ∧ t.psel = s.psel ∧
    (s.run = .stopped ∨ s.psel = .none ∨ 4 ≤ s.phase.toNat → t.ovf = false ∧ t.irq = false ∧ t.cnt = s.cnt ∧ t.dir = s.dir)

/-- R133: the canonical start-up, from any state: its end state, for any period, any choice of channels and duties, with or
without a callback, which is stored and enabled as R103 says. That channel A is enabled before channel B is the model's choice,
since R133 gives no order (log 13). -/
def Obligations.CanonicalStartUp : Prop :=
  ∀ (s : State) (us : Word) (dutyA dutyB : Option Nat) (cb : Option Word),
    (∀ d, dutyA = some d → d < 2048) → (∀ d, dutyB = some d → d < 2048) →
    ∃ t, runCycles (canonicalStart us dutyA dutyB cb) s = .next t ∧ t.run = .counting ∧
      (t.psel, t.reload) = periodConfig s.cfg.clkHz us.toNat ∧ t.cnt = 0 ∧ t.dir = .up ∧ t.ovf = false ∧
      (∀ d, dutyA = some d → t.chA = { en := true, cmp := conv s.cfg.fullScale t.reload d, pindir := true }) ∧
      (∀ d, dutyB = some d → t.chB = { en := true, cmp := conv s.cfg.fullScale t.reload d, pindir := true }) ∧
      (dutyA = none → t.chA = s.chA) ∧ (dutyB = none → t.chB = s.chB) ∧
      (∀ h, cb = some h → t.handle = h ∧ t.cbv = true ∧ t.ovie = true) ∧
      (cb = none → t.handle = s.handle ∧ t.cbv = s.cbv ∧ t.ovie = s.ovie)
end

