-- ==== Sys2Proof/Laws/State.lean ====
section
/-! SUPPORT. One lemma per field per update of the state, each true by `rfl`, so that no later proof unfolds a record update. -/

namespace Sys2Proof.Machine

/-! `setClock` -/

@[simp] theorem setClock_cfg (s : State) (c : Psel) (r : Half) : (s.setClock c r).cfg = s.cfg := rfl
@[simp] theorem setClock_psel (s : State) (c : Psel) (r : Half) : (s.setClock c r).psel = c := rfl
@[simp] theorem setClock_reload (s : State) (c : Psel) (r : Half) : (s.setClock c r).reload = r := rfl
@[simp] theorem setClock_run (s : State) (c : Psel) (r : Half) : (s.setClock c r).run = s.run := rfl
@[simp] theorem setClock_cnt (s : State) (c : Psel) (r : Half) : (s.setClock c r).cnt = s.cnt := rfl
@[simp] theorem setClock_dir (s : State) (c : Psel) (r : Half) : (s.setClock c r).dir = s.dir := rfl
@[simp] theorem setClock_phase (s : State) (c : Psel) (r : Half) : (s.setClock c r).phase = s.phase := rfl
@[simp] theorem setClock_chA (s : State) (c : Psel) (r : Half) : (s.setClock c r).chA = s.chA := rfl
@[simp] theorem setClock_chB (s : State) (c : Psel) (r : Half) : (s.setClock c r).chB = s.chB := rfl
@[simp] theorem setClock_ovf (s : State) (c : Psel) (r : Half) : (s.setClock c r).ovf = s.ovf := rfl
@[simp] theorem setClock_ovie (s : State) (c : Psel) (r : Half) : (s.setClock c r).ovie = s.ovie := rfl
@[simp] theorem setClock_cbv (s : State) (c : Psel) (r : Half) : (s.setClock c r).cbv = s.cbv := rfl
@[simp] theorem setClock_handle (s : State) (c : Psel) (r : Half) : (s.setClock c r).handle = s.handle := rfl
@[simp] theorem setClock_argPeriod (s : State) (c : Psel) (r : Half) : (s.setClock c r).argPeriod = s.argPeriod := rfl
@[simp] theorem setClock_argHandle (s : State) (c : Psel) (r : Half) : (s.setClock c r).argHandle = s.argHandle := rfl
@[simp] theorem setClock_phaseLoaded (s : State) (c : Psel) (r : Half) : (s.setClock c r).phaseLoaded = s.phaseLoaded := rfl
@[simp] theorem setClock_inputs (s : State) (c : Psel) (r : Half) : (s.setClock c r).inputs = s.inputs := rfl
@[simp] theorem setClock_rdata (s : State) (c : Psel) (r : Half) : (s.setClock c r).rdata = s.rdata := rfl
@[simp] theorem setClock_draws (s : State) (c : Psel) (r : Half) : (s.setClock c r).draws = s.draws := rfl

/-! `setRun` -/

@[simp] theorem setRun_cfg (s : State) (r : RunState) : (s.setRun r).cfg = s.cfg := rfl
@[simp] theorem setRun_psel (s : State) (r : RunState) : (s.setRun r).psel = s.psel := rfl
@[simp] theorem setRun_reload (s : State) (r : RunState) : (s.setRun r).reload = s.reload := rfl
@[simp] theorem setRun_run (s : State) (r : RunState) : (s.setRun r).run = r := rfl
@[simp] theorem setRun_cnt (s : State) (r : RunState) : (s.setRun r).cnt = s.cnt := rfl
@[simp] theorem setRun_dir (s : State) (r : RunState) : (s.setRun r).dir = s.dir := rfl
@[simp] theorem setRun_phase (s : State) (r : RunState) : (s.setRun r).phase = s.phase := rfl
@[simp] theorem setRun_chA (s : State) (r : RunState) : (s.setRun r).chA = s.chA := rfl
@[simp] theorem setRun_chB (s : State) (r : RunState) : (s.setRun r).chB = s.chB := rfl
@[simp] theorem setRun_ovf (s : State) (r : RunState) : (s.setRun r).ovf = s.ovf := rfl
@[simp] theorem setRun_ovie (s : State) (r : RunState) : (s.setRun r).ovie = s.ovie := rfl
@[simp] theorem setRun_cbv (s : State) (r : RunState) : (s.setRun r).cbv = s.cbv := rfl
@[simp] theorem setRun_handle (s : State) (r : RunState) : (s.setRun r).handle = s.handle := rfl
@[simp] theorem setRun_argPeriod (s : State) (r : RunState) : (s.setRun r).argPeriod = s.argPeriod := rfl
@[simp] theorem setRun_argHandle (s : State) (r : RunState) : (s.setRun r).argHandle = s.argHandle := rfl
@[simp] theorem setRun_phaseLoaded (s : State) (r : RunState) : (s.setRun r).phaseLoaded = s.phaseLoaded := rfl
@[simp] theorem setRun_inputs (s : State) (r : RunState) : (s.setRun r).inputs = s.inputs := rfl
@[simp] theorem setRun_rdata (s : State) (r : RunState) : (s.setRun r).rdata = s.rdata := rfl
@[simp] theorem setRun_draws (s : State) (r : RunState) : (s.setRun r).draws = s.draws := rfl

/-! `setCounter` -/

@[simp] theorem setCounter_cfg (s : State) (c : Half) (d : Dir) : (s.setCounter c d).cfg = s.cfg := rfl
@[simp] theorem setCounter_psel (s : State) (c : Half) (d : Dir) : (s.setCounter c d).psel = s.psel := rfl
@[simp] theorem setCounter_reload (s : State) (c : Half) (d : Dir) : (s.setCounter c d).reload = s.reload := rfl
@[simp] theorem setCounter_run (s : State) (c : Half) (d : Dir) : (s.setCounter c d).run = s.run := rfl
@[simp] theorem setCounter_cnt (s : State) (c : Half) (d : Dir) : (s.setCounter c d).cnt = c := rfl
@[simp] theorem setCounter_dir (s : State) (c : Half) (d : Dir) : (s.setCounter c d).dir = d := rfl
@[simp] theorem setCounter_phase (s : State) (c : Half) (d : Dir) : (s.setCounter c d).phase = s.phase := rfl
@[simp] theorem setCounter_chA (s : State) (c : Half) (d : Dir) : (s.setCounter c d).chA = s.chA := rfl
@[simp] theorem setCounter_chB (s : State) (c : Half) (d : Dir) : (s.setCounter c d).chB = s.chB := rfl
@[simp] theorem setCounter_ovf (s : State) (c : Half) (d : Dir) : (s.setCounter c d).ovf = s.ovf := rfl
@[simp] theorem setCounter_ovie (s : State) (c : Half) (d : Dir) : (s.setCounter c d).ovie = s.ovie := rfl
@[simp] theorem setCounter_cbv (s : State) (c : Half) (d : Dir) : (s.setCounter c d).cbv = s.cbv := rfl
@[simp] theorem setCounter_handle (s : State) (c : Half) (d : Dir) : (s.setCounter c d).handle = s.handle := rfl
@[simp] theorem setCounter_argPeriod (s : State) (c : Half) (d : Dir) : (s.setCounter c d).argPeriod = s.argPeriod := rfl
@[simp] theorem setCounter_argHandle (s : State) (c : Half) (d : Dir) : (s.setCounter c d).argHandle = s.argHandle := rfl
@[simp] theorem setCounter_phaseLoaded (s : State) (c : Half) (d : Dir) : (s.setCounter c d).phaseLoaded = s.phaseLoaded := rfl
@[simp] theorem setCounter_inputs (s : State) (c : Half) (d : Dir) : (s.setCounter c d).inputs = s.inputs := rfl
@[simp] theorem setCounter_rdata (s : State) (c : Half) (d : Dir) : (s.setCounter c d).rdata = s.rdata := rfl
@[simp] theorem setCounter_draws (s : State) (c : Half) (d : Dir) : (s.setCounter c d).draws = s.draws := rfl

/-! `setPhase` -/

@[simp] theorem setPhase_cfg (s : State) (p : BitVec 11) : (s.setPhase p).cfg = s.cfg := rfl
@[simp] theorem setPhase_psel (s : State) (p : BitVec 11) : (s.setPhase p).psel = s.psel := rfl
@[simp] theorem setPhase_reload (s : State) (p : BitVec 11) : (s.setPhase p).reload = s.reload := rfl
@[simp] theorem setPhase_run (s : State) (p : BitVec 11) : (s.setPhase p).run = s.run := rfl
@[simp] theorem setPhase_cnt (s : State) (p : BitVec 11) : (s.setPhase p).cnt = s.cnt := rfl
@[simp] theorem setPhase_dir (s : State) (p : BitVec 11) : (s.setPhase p).dir = s.dir := rfl
@[simp] theorem setPhase_phase (s : State) (p : BitVec 11) : (s.setPhase p).phase = p := rfl
@[simp] theorem setPhase_chA (s : State) (p : BitVec 11) : (s.setPhase p).chA = s.chA := rfl
@[simp] theorem setPhase_chB (s : State) (p : BitVec 11) : (s.setPhase p).chB = s.chB := rfl
@[simp] theorem setPhase_ovf (s : State) (p : BitVec 11) : (s.setPhase p).ovf = s.ovf := rfl
@[simp] theorem setPhase_ovie (s : State) (p : BitVec 11) : (s.setPhase p).ovie = s.ovie := rfl
@[simp] theorem setPhase_cbv (s : State) (p : BitVec 11) : (s.setPhase p).cbv = s.cbv := rfl
@[simp] theorem setPhase_handle (s : State) (p : BitVec 11) : (s.setPhase p).handle = s.handle := rfl
@[simp] theorem setPhase_argPeriod (s : State) (p : BitVec 11) : (s.setPhase p).argPeriod = s.argPeriod := rfl
@[simp] theorem setPhase_argHandle (s : State) (p : BitVec 11) : (s.setPhase p).argHandle = s.argHandle := rfl
@[simp] theorem setPhase_phaseLoaded (s : State) (p : BitVec 11) : (s.setPhase p).phaseLoaded = s.phaseLoaded := rfl
@[simp] theorem setPhase_inputs (s : State) (p : BitVec 11) : (s.setPhase p).inputs = s.inputs := rfl
@[simp] theorem setPhase_rdata (s : State) (p : BitVec 11) : (s.setPhase p).rdata = s.rdata := rfl
@[simp] theorem setPhase_draws (s : State) (p : BitVec 11) : (s.setPhase p).draws = s.draws := rfl

/-! `clearLoaded` -/

@[simp] theorem clearLoaded_cfg (s : State) : (s.clearLoaded).cfg = s.cfg := rfl
@[simp] theorem clearLoaded_psel (s : State) : (s.clearLoaded).psel = s.psel := rfl
@[simp] theorem clearLoaded_reload (s : State) : (s.clearLoaded).reload = s.reload := rfl
@[simp] theorem clearLoaded_run (s : State) : (s.clearLoaded).run = s.run := rfl
@[simp] theorem clearLoaded_cnt (s : State) : (s.clearLoaded).cnt = s.cnt := rfl
@[simp] theorem clearLoaded_dir (s : State) : (s.clearLoaded).dir = s.dir := rfl
@[simp] theorem clearLoaded_phase (s : State) : (s.clearLoaded).phase = s.phase := rfl
@[simp] theorem clearLoaded_chA (s : State) : (s.clearLoaded).chA = s.chA := rfl
@[simp] theorem clearLoaded_chB (s : State) : (s.clearLoaded).chB = s.chB := rfl
@[simp] theorem clearLoaded_ovf (s : State) : (s.clearLoaded).ovf = s.ovf := rfl
@[simp] theorem clearLoaded_ovie (s : State) : (s.clearLoaded).ovie = s.ovie := rfl
@[simp] theorem clearLoaded_cbv (s : State) : (s.clearLoaded).cbv = s.cbv := rfl
@[simp] theorem clearLoaded_handle (s : State) : (s.clearLoaded).handle = s.handle := rfl
@[simp] theorem clearLoaded_argPeriod (s : State) : (s.clearLoaded).argPeriod = s.argPeriod := rfl
@[simp] theorem clearLoaded_argHandle (s : State) : (s.clearLoaded).argHandle = s.argHandle := rfl
@[simp] theorem clearLoaded_phaseLoaded (s : State) : (s.clearLoaded).phaseLoaded = false := rfl
@[simp] theorem clearLoaded_inputs (s : State) : (s.clearLoaded).inputs = s.inputs := rfl
@[simp] theorem clearLoaded_rdata (s : State) : (s.clearLoaded).rdata = s.rdata := rfl
@[simp] theorem clearLoaded_draws (s : State) : (s.clearLoaded).draws = s.draws := rfl

/-! `setOvf` -/

@[simp] theorem setOvf_cfg (s : State) (b : Bool) : (s.setOvf b).cfg = s.cfg := rfl
@[simp] theorem setOvf_psel (s : State) (b : Bool) : (s.setOvf b).psel = s.psel := rfl
@[simp] theorem setOvf_reload (s : State) (b : Bool) : (s.setOvf b).reload = s.reload := rfl
@[simp] theorem setOvf_run (s : State) (b : Bool) : (s.setOvf b).run = s.run := rfl
@[simp] theorem setOvf_cnt (s : State) (b : Bool) : (s.setOvf b).cnt = s.cnt := rfl
@[simp] theorem setOvf_dir (s : State) (b : Bool) : (s.setOvf b).dir = s.dir := rfl
@[simp] theorem setOvf_phase (s : State) (b : Bool) : (s.setOvf b).phase = s.phase := rfl
@[simp] theorem setOvf_chA (s : State) (b : Bool) : (s.setOvf b).chA = s.chA := rfl
@[simp] theorem setOvf_chB (s : State) (b : Bool) : (s.setOvf b).chB = s.chB := rfl
@[simp] theorem setOvf_ovf (s : State) (b : Bool) : (s.setOvf b).ovf = b := rfl
@[simp] theorem setOvf_ovie (s : State) (b : Bool) : (s.setOvf b).ovie = s.ovie := rfl
@[simp] theorem setOvf_cbv (s : State) (b : Bool) : (s.setOvf b).cbv = s.cbv := rfl
@[simp] theorem setOvf_handle (s : State) (b : Bool) : (s.setOvf b).handle = s.handle := rfl
@[simp] theorem setOvf_argPeriod (s : State) (b : Bool) : (s.setOvf b).argPeriod = s.argPeriod := rfl
@[simp] theorem setOvf_argHandle (s : State) (b : Bool) : (s.setOvf b).argHandle = s.argHandle := rfl
@[simp] theorem setOvf_phaseLoaded (s : State) (b : Bool) : (s.setOvf b).phaseLoaded = s.phaseLoaded := rfl
@[simp] theorem setOvf_inputs (s : State) (b : Bool) : (s.setOvf b).inputs = s.inputs := rfl
@[simp] theorem setOvf_rdata (s : State) (b : Bool) : (s.setOvf b).rdata = s.rdata := rfl
@[simp] theorem setOvf_draws (s : State) (b : Bool) : (s.setOvf b).draws = s.draws := rfl

/-! `setOvie` -/

@[simp] theorem setOvie_cfg (s : State) (b : Bool) : (s.setOvie b).cfg = s.cfg := rfl
@[simp] theorem setOvie_psel (s : State) (b : Bool) : (s.setOvie b).psel = s.psel := rfl
@[simp] theorem setOvie_reload (s : State) (b : Bool) : (s.setOvie b).reload = s.reload := rfl
@[simp] theorem setOvie_run (s : State) (b : Bool) : (s.setOvie b).run = s.run := rfl
@[simp] theorem setOvie_cnt (s : State) (b : Bool) : (s.setOvie b).cnt = s.cnt := rfl
@[simp] theorem setOvie_dir (s : State) (b : Bool) : (s.setOvie b).dir = s.dir := rfl
@[simp] theorem setOvie_phase (s : State) (b : Bool) : (s.setOvie b).phase = s.phase := rfl
@[simp] theorem setOvie_chA (s : State) (b : Bool) : (s.setOvie b).chA = s.chA := rfl
@[simp] theorem setOvie_chB (s : State) (b : Bool) : (s.setOvie b).chB = s.chB := rfl
@[simp] theorem setOvie_ovf (s : State) (b : Bool) : (s.setOvie b).ovf = s.ovf := rfl
@[simp] theorem setOvie_ovie (s : State) (b : Bool) : (s.setOvie b).ovie = b := rfl
@[simp] theorem setOvie_cbv (s : State) (b : Bool) : (s.setOvie b).cbv = s.cbv := rfl
@[simp] theorem setOvie_handle (s : State) (b : Bool) : (s.setOvie b).handle = s.handle := rfl
@[simp] theorem setOvie_argPeriod (s : State) (b : Bool) : (s.setOvie b).argPeriod = s.argPeriod := rfl
@[simp] theorem setOvie_argHandle (s : State) (b : Bool) : (s.setOvie b).argHandle = s.argHandle := rfl
@[simp] theorem setOvie_phaseLoaded (s : State) (b : Bool) : (s.setOvie b).phaseLoaded = s.phaseLoaded := rfl
@[simp] theorem setOvie_inputs (s : State) (b : Bool) : (s.setOvie b).inputs = s.inputs := rfl
@[simp] theorem setOvie_rdata (s : State) (b : Bool) : (s.setOvie b).rdata = s.rdata := rfl
@[simp] theorem setOvie_draws (s : State) (b : Bool) : (s.setOvie b).draws = s.draws := rfl

/-! `storeCallback` -/

@[simp] theorem storeCallback_cfg (s : State) (h : Word) : (s.storeCallback h).cfg = s.cfg := rfl
@[simp] theorem storeCallback_psel (s : State) (h : Word) : (s.storeCallback h).psel = s.psel := rfl
@[simp] theorem storeCallback_reload (s : State) (h : Word) : (s.storeCallback h).reload = s.reload := rfl
@[simp] theorem storeCallback_run (s : State) (h : Word) : (s.storeCallback h).run = s.run := rfl
@[simp] theorem storeCallback_cnt (s : State) (h : Word) : (s.storeCallback h).cnt = s.cnt := rfl
@[simp] theorem storeCallback_dir (s : State) (h : Word) : (s.storeCallback h).dir = s.dir := rfl
@[simp] theorem storeCallback_phase (s : State) (h : Word) : (s.storeCallback h).phase = s.phase := rfl
@[simp] theorem storeCallback_chA (s : State) (h : Word) : (s.storeCallback h).chA = s.chA := rfl
@[simp] theorem storeCallback_chB (s : State) (h : Word) : (s.storeCallback h).chB = s.chB := rfl
@[simp] theorem storeCallback_ovf (s : State) (h : Word) : (s.storeCallback h).ovf = s.ovf := rfl
@[simp] theorem storeCallback_ovie (s : State) (h : Word) : (s.storeCallback h).ovie = s.ovie := rfl
@[simp] theorem storeCallback_cbv (s : State) (h : Word) : (s.storeCallback h).cbv = true := rfl
@[simp] theorem storeCallback_handle (s : State) (h : Word) : (s.storeCallback h).handle = h := rfl
@[simp] theorem storeCallback_argPeriod (s : State) (h : Word) : (s.storeCallback h).argPeriod = s.argPeriod := rfl
@[simp] theorem storeCallback_argHandle (s : State) (h : Word) : (s.storeCallback h).argHandle = s.argHandle := rfl
@[simp] theorem storeCallback_phaseLoaded (s : State) (h : Word) : (s.storeCallback h).phaseLoaded = s.phaseLoaded := rfl
@[simp] theorem storeCallback_inputs (s : State) (h : Word) : (s.storeCallback h).inputs = s.inputs := rfl
@[simp] theorem storeCallback_rdata (s : State) (h : Word) : (s.storeCallback h).rdata = s.rdata := rfl
@[simp] theorem storeCallback_draws (s : State) (h : Word) : (s.storeCallback h).draws = s.draws := rfl

/-! `setArgPeriod` -/

@[simp] theorem setArgPeriod_cfg (s : State) (v : Word) : (s.setArgPeriod v).cfg = s.cfg := rfl
@[simp] theorem setArgPeriod_psel (s : State) (v : Word) : (s.setArgPeriod v).psel = s.psel := rfl
@[simp] theorem setArgPeriod_reload (s : State) (v : Word) : (s.setArgPeriod v).reload = s.reload := rfl
@[simp] theorem setArgPeriod_run (s : State) (v : Word) : (s.setArgPeriod v).run = s.run := rfl
@[simp] theorem setArgPeriod_cnt (s : State) (v : Word) : (s.setArgPeriod v).cnt = s.cnt := rfl
@[simp] theorem setArgPeriod_dir (s : State) (v : Word) : (s.setArgPeriod v).dir = s.dir := rfl
@[simp] theorem setArgPeriod_phase (s : State) (v : Word) : (s.setArgPeriod v).phase = s.phase := rfl
@[simp] theorem setArgPeriod_chA (s : State) (v : Word) : (s.setArgPeriod v).chA = s.chA := rfl
@[simp] theorem setArgPeriod_chB (s : State) (v : Word) : (s.setArgPeriod v).chB = s.chB := rfl
@[simp] theorem setArgPeriod_ovf (s : State) (v : Word) : (s.setArgPeriod v).ovf = s.ovf := rfl
@[simp] theorem setArgPeriod_ovie (s : State) (v : Word) : (s.setArgPeriod v).ovie = s.ovie := rfl
@[simp] theorem setArgPeriod_cbv (s : State) (v : Word) : (s.setArgPeriod v).cbv = s.cbv := rfl
@[simp] theorem setArgPeriod_handle (s : State) (v : Word) : (s.setArgPeriod v).handle = s.handle := rfl
@[simp] theorem setArgPeriod_argPeriod (s : State) (v : Word) : (s.setArgPeriod v).argPeriod = v := rfl
@[simp] theorem setArgPeriod_argHandle (s : State) (v : Word) : (s.setArgPeriod v).argHandle = s.argHandle := rfl
@[simp] theorem setArgPeriod_phaseLoaded (s : State) (v : Word) : (s.setArgPeriod v).phaseLoaded = s.phaseLoaded := rfl
@[simp] theorem setArgPeriod_inputs (s : State) (v : Word) : (s.setArgPeriod v).inputs = s.inputs := rfl
@[simp] theorem setArgPeriod_rdata (s : State) (v : Word) : (s.setArgPeriod v).rdata = s.rdata := rfl
@[simp] theorem setArgPeriod_draws (s : State) (v : Word) : (s.setArgPeriod v).draws = s.draws := rfl

/-! `setArgHandle` -/

@[simp] theorem setArgHandle_cfg (s : State) (v : Word) : (s.setArgHandle v).cfg = s.cfg := rfl
@[simp] theorem setArgHandle_psel (s : State) (v : Word) : (s.setArgHandle v).psel = s.psel := rfl
@[simp] theorem setArgHandle_reload (s : State) (v : Word) : (s.setArgHandle v).reload = s.reload := rfl
@[simp] theorem setArgHandle_run (s : State) (v : Word) : (s.setArgHandle v).run = s.run := rfl
@[simp] theorem setArgHandle_cnt (s : State) (v : Word) : (s.setArgHandle v).cnt = s.cnt := rfl
@[simp] theorem setArgHandle_dir (s : State) (v : Word) : (s.setArgHandle v).dir = s.dir := rfl
@[simp] theorem setArgHandle_phase (s : State) (v : Word) : (s.setArgHandle v).phase = s.phase := rfl
@[simp] theorem setArgHandle_chA (s : State) (v : Word) : (s.setArgHandle v).chA = s.chA := rfl
@[simp] theorem setArgHandle_chB (s : State) (v : Word) : (s.setArgHandle v).chB = s.chB := rfl
@[simp] theorem setArgHandle_ovf (s : State) (v : Word) : (s.setArgHandle v).ovf = s.ovf := rfl
@[simp] theorem setArgHandle_ovie (s : State) (v : Word) : (s.setArgHandle v).ovie = s.ovie := rfl
@[simp] theorem setArgHandle_cbv (s : State) (v : Word) : (s.setArgHandle v).cbv = s.cbv := rfl
@[simp] theorem setArgHandle_handle (s : State) (v : Word) : (s.setArgHandle v).handle = s.handle := rfl
@[simp] theorem setArgHandle_argPeriod (s : State) (v : Word) : (s.setArgHandle v).argPeriod = s.argPeriod := rfl
@[simp] theorem setArgHandle_argHandle (s : State) (v : Word) : (s.setArgHandle v).argHandle = v := rfl
@[simp] theorem setArgHandle_phaseLoaded (s : State) (v : Word) : (s.setArgHandle v).phaseLoaded = s.phaseLoaded := rfl
@[simp] theorem setArgHandle_inputs (s : State) (v : Word) : (s.setArgHandle v).inputs = s.inputs := rfl
@[simp] theorem setArgHandle_rdata (s : State) (v : Word) : (s.setArgHandle v).rdata = s.rdata := rfl
@[simp] theorem setArgHandle_draws (s : State) (v : Word) : (s.setArgHandle v).draws = s.draws := rfl

/-! `setRdata` -/

@[simp] theorem setRdata_cfg (s : State) (v : Option Word) : (s.setRdata v).cfg = s.cfg := rfl
@[simp] theorem setRdata_psel (s : State) (v : Option Word) : (s.setRdata v).psel = s.psel := rfl
@[simp] theorem setRdata_reload (s : State) (v : Option Word) : (s.setRdata v).reload = s.reload := rfl
@[simp] theorem setRdata_run (s : State) (v : Option Word) : (s.setRdata v).run = s.run := rfl
@[simp] theorem setRdata_cnt (s : State) (v : Option Word) : (s.setRdata v).cnt = s.cnt := rfl
@[simp] theorem setRdata_dir (s : State) (v : Option Word) : (s.setRdata v).dir = s.dir := rfl
@[simp] theorem setRdata_phase (s : State) (v : Option Word) : (s.setRdata v).phase = s.phase := rfl
@[simp] theorem setRdata_chA (s : State) (v : Option Word) : (s.setRdata v).chA = s.chA := rfl
@[simp] theorem setRdata_chB (s : State) (v : Option Word) : (s.setRdata v).chB = s.chB := rfl
@[simp] theorem setRdata_ovf (s : State) (v : Option Word) : (s.setRdata v).ovf = s.ovf := rfl
@[simp] theorem setRdata_ovie (s : State) (v : Option Word) : (s.setRdata v).ovie = s.ovie := rfl
@[simp] theorem setRdata_cbv (s : State) (v : Option Word) : (s.setRdata v).cbv = s.cbv := rfl
@[simp] theorem setRdata_handle (s : State) (v : Option Word) : (s.setRdata v).handle = s.handle := rfl
@[simp] theorem setRdata_argPeriod (s : State) (v : Option Word) : (s.setRdata v).argPeriod = s.argPeriod := rfl
@[simp] theorem setRdata_argHandle (s : State) (v : Option Word) : (s.setRdata v).argHandle = s.argHandle := rfl
@[simp] theorem setRdata_phaseLoaded (s : State) (v : Option Word) : (s.setRdata v).phaseLoaded = s.phaseLoaded := rfl
@[simp] theorem setRdata_inputs (s : State) (v : Option Word) : (s.setRdata v).inputs = s.inputs := rfl
@[simp] theorem setRdata_rdata (s : State) (v : Option Word) : (s.setRdata v).rdata = v := rfl
@[simp] theorem setRdata_draws (s : State) (v : Option Word) : (s.setRdata v).draws = s.draws := rfl

/-! `setInputs` -/

@[simp] theorem setInputs_cfg (s : State) (cs : List Cycle) : (s.setInputs cs).cfg = s.cfg := rfl
@[simp] theorem setInputs_psel (s : State) (cs : List Cycle) : (s.setInputs cs).psel = s.psel := rfl
@[simp] theorem setInputs_reload (s : State) (cs : List Cycle) : (s.setInputs cs).reload = s.reload := rfl
@[simp] theorem setInputs_run (s : State) (cs : List Cycle) : (s.setInputs cs).run = s.run := rfl
@[simp] theorem setInputs_cnt (s : State) (cs : List Cycle) : (s.setInputs cs).cnt = s.cnt := rfl
@[simp] theorem setInputs_dir (s : State) (cs : List Cycle) : (s.setInputs cs).dir = s.dir := rfl
@[simp] theorem setInputs_phase (s : State) (cs : List Cycle) : (s.setInputs cs).phase = s.phase := rfl
@[simp] theorem setInputs_chA (s : State) (cs : List Cycle) : (s.setInputs cs).chA = s.chA := rfl
@[simp] theorem setInputs_chB (s : State) (cs : List Cycle) : (s.setInputs cs).chB = s.chB := rfl
@[simp] theorem setInputs_ovf (s : State) (cs : List Cycle) : (s.setInputs cs).ovf = s.ovf := rfl
@[simp] theorem setInputs_ovie (s : State) (cs : List Cycle) : (s.setInputs cs).ovie = s.ovie := rfl
@[simp] theorem setInputs_cbv (s : State) (cs : List Cycle) : (s.setInputs cs).cbv = s.cbv := rfl
@[simp] theorem setInputs_handle (s : State) (cs : List Cycle) : (s.setInputs cs).handle = s.handle := rfl
@[simp] theorem setInputs_argPeriod (s : State) (cs : List Cycle) : (s.setInputs cs).argPeriod = s.argPeriod := rfl
@[simp] theorem setInputs_argHandle (s : State) (cs : List Cycle) : (s.setInputs cs).argHandle = s.argHandle := rfl
@[simp] theorem setInputs_phaseLoaded (s : State) (cs : List Cycle) : (s.setInputs cs).phaseLoaded = s.phaseLoaded := rfl
@[simp] theorem setInputs_inputs (s : State) (cs : List Cycle) : (s.setInputs cs).inputs = cs := rfl
@[simp] theorem setInputs_rdata (s : State) (cs : List Cycle) : (s.setInputs cs).rdata = s.rdata := rfl
@[simp] theorem setInputs_draws (s : State) (cs : List Cycle) : (s.setInputs cs).draws = s.draws := rfl

/-! `loadPhase` -/

@[simp] theorem loadPhase_cfg (s : State) (n : Nat) : (s.loadPhase n).cfg = s.cfg := rfl
@[simp] theorem loadPhase_psel (s : State) (n : Nat) : (s.loadPhase n).psel = s.psel := rfl
@[simp] theorem loadPhase_reload (s : State) (n : Nat) : (s.loadPhase n).reload = s.reload := rfl
@[simp] theorem loadPhase_run (s : State) (n : Nat) : (s.loadPhase n).run = s.run := rfl
@[simp] theorem loadPhase_cnt (s : State) (n : Nat) : (s.loadPhase n).cnt = s.cnt := rfl
@[simp] theorem loadPhase_dir (s : State) (n : Nat) : (s.loadPhase n).dir = s.dir := rfl
@[simp] theorem loadPhase_phase (s : State) (n : Nat) : (s.loadPhase n).phase = BitVec.ofNat 11 (drawUpTo n s.draws) := rfl
@[simp] theorem loadPhase_chA (s : State) (n : Nat) : (s.loadPhase n).chA = s.chA := rfl
@[simp] theorem loadPhase_chB (s : State) (n : Nat) : (s.loadPhase n).chB = s.chB := rfl
@[simp] theorem loadPhase_ovf (s : State) (n : Nat) : (s.loadPhase n).ovf = s.ovf := rfl
@[simp] theorem loadPhase_ovie (s : State) (n : Nat) : (s.loadPhase n).ovie = s.ovie := rfl
@[simp] theorem loadPhase_cbv (s : State) (n : Nat) : (s.loadPhase n).cbv = s.cbv := rfl
@[simp] theorem loadPhase_handle (s : State) (n : Nat) : (s.loadPhase n).handle = s.handle := rfl
@[simp] theorem loadPhase_argPeriod (s : State) (n : Nat) : (s.loadPhase n).argPeriod = s.argPeriod := rfl
@[simp] theorem loadPhase_argHandle (s : State) (n : Nat) : (s.loadPhase n).argHandle = s.argHandle := rfl
@[simp] theorem loadPhase_phaseLoaded (s : State) (n : Nat) : (s.loadPhase n).phaseLoaded = true := rfl
@[simp] theorem loadPhase_inputs (s : State) (n : Nat) : (s.loadPhase n).inputs = s.inputs := rfl
@[simp] theorem loadPhase_rdata (s : State) (n : Nat) : (s.loadPhase n).rdata = s.rdata := rfl
@[simp] theorem loadPhase_draws (s : State) (n : Nat) : (s.loadPhase n).draws = s.draws + 1 := rfl

/-! `drawCounter` -/

@[simp] theorem drawCounter_cfg (s : State) : (s.drawCounter).cfg = s.cfg := rfl
@[simp] theorem drawCounter_psel (s : State) : (s.drawCounter).psel = s.psel := rfl
@[simp] theorem drawCounter_reload (s : State) : (s.drawCounter).reload = s.reload := rfl
@[simp] theorem drawCounter_run (s : State) : (s.drawCounter).run = s.run := rfl
@[simp] theorem drawCounter_cnt (s : State) : (s.drawCounter).cnt = drawBits 16 s.draws := rfl
@[simp] theorem drawCounter_dir (s : State) : (s.drawCounter).dir = drawDir (s.draws + 1) := rfl
@[simp] theorem drawCounter_phase (s : State) : (s.drawCounter).phase = s.phase := rfl
@[simp] theorem drawCounter_chA (s : State) : (s.drawCounter).chA = s.chA := rfl
@[simp] theorem drawCounter_chB (s : State) : (s.drawCounter).chB = s.chB := rfl
@[simp] theorem drawCounter_ovf (s : State) : (s.drawCounter).ovf = s.ovf := rfl
@[simp] theorem drawCounter_ovie (s : State) : (s.drawCounter).ovie = s.ovie := rfl
@[simp] theorem drawCounter_cbv (s : State) : (s.drawCounter).cbv = s.cbv := rfl
@[simp] theorem drawCounter_handle (s : State) : (s.drawCounter).handle = s.handle := rfl
@[simp] theorem drawCounter_argPeriod (s : State) : (s.drawCounter).argPeriod = s.argPeriod := rfl
@[simp] theorem drawCounter_argHandle (s : State) : (s.drawCounter).argHandle = s.argHandle := rfl
@[simp] theorem drawCounter_phaseLoaded (s : State) : (s.drawCounter).phaseLoaded = s.phaseLoaded := rfl
@[simp] theorem drawCounter_inputs (s : State) : (s.drawCounter).inputs = s.inputs := rfl
@[simp] theorem drawCounter_rdata (s : State) : (s.drawCounter).rdata = s.rdata := rfl
@[simp] theorem drawCounter_draws (s : State) : (s.drawCounter).draws = s.draws + 2 := rfl

/-! `setChan` and `chan` -/

@[simp] theorem setChan_cfg (s : State) (x : ChannelId) (c : Channel) : (s.setChan x c).cfg = s.cfg := by
  cases x <;> rfl
@[simp] theorem setChan_psel (s : State) (x : ChannelId) (c : Channel) : (s.setChan x c).psel = s.psel := by
  cases x <;> rfl
@[simp] theorem setChan_reload (s : State) (x : ChannelId) (c : Channel) : (s.setChan x c).reload = s.reload := by
  cases x <;> rfl
@[simp] theorem setChan_run (s : State) (x : ChannelId) (c : Channel) : (s.setChan x c).run = s.run := by
  cases x <;> rfl
@[simp] theorem setChan_cnt (s : State) (x : ChannelId) (c : Channel) : (s.setChan x c).cnt = s.cnt := by
  cases x <;> rfl
@[simp] theorem setChan_dir (s : State) (x : ChannelId) (c : Channel) : (s.setChan x c).dir = s.dir := by
  cases x <;> rfl
@[simp] theorem setChan_phase (s : State) (x : ChannelId) (c : Channel) : (s.setChan x c).phase = s.phase := by
  cases x <;> rfl
@[simp] theorem setChan_ovf (s : State) (x : ChannelId) (c : Channel) : (s.setChan x c).ovf = s.ovf := by
  cases x <;> rfl
@[simp] theorem setChan_ovie (s : State) (x : ChannelId) (c : Channel) : (s.setChan x c).ovie = s.ovie := by
  cases x <;> rfl
@[simp] theorem setChan_cbv (s : State) (x : ChannelId) (c : Channel) : (s.setChan x c).cbv = s.cbv := by
  cases x <;> rfl
@[simp] theorem setChan_handle (s : State) (x : ChannelId) (c : Channel) : (s.setChan x c).handle = s.handle := by
  cases x <;> rfl
@[simp] theorem setChan_argPeriod (s : State) (x : ChannelId) (c : Channel) : (s.setChan x c).argPeriod = s.argPeriod := by
  cases x <;> rfl
@[simp] theorem setChan_argHandle (s : State) (x : ChannelId) (c : Channel) : (s.setChan x c).argHandle = s.argHandle := by
  cases x <;> rfl
@[simp] theorem setChan_phaseLoaded (s : State) (x : ChannelId) (c : Channel) : (s.setChan x c).phaseLoaded = s.phaseLoaded := by
  cases x <;> rfl
@[simp] theorem setChan_inputs (s : State) (x : ChannelId) (c : Channel) : (s.setChan x c).inputs = s.inputs := by
  cases x <;> rfl
@[simp] theorem setChan_rdata (s : State) (x : ChannelId) (c : Channel) : (s.setChan x c).rdata = s.rdata := by
  cases x <;> rfl
@[simp] theorem setChan_draws (s : State) (x : ChannelId) (c : Channel) : (s.setChan x c).draws = s.draws := by
  cases x <;> rfl
@[simp] theorem setChan_A (s : State) (c : Channel) : s.setChan .A c = { s with chA := c } := rfl
@[simp] theorem setChan_B (s : State) (c : Channel) : s.setChan .B c = { s with chB := c } := rfl
@[simp] theorem chan_A (s : State) : s.chan .A = s.chA := rfl
@[simp] theorem chan_B (s : State) : s.chan .B = s.chB := rfl

/-- A channel just written reads back. -/
theorem chan_setChan_same (s : State) (x : ChannelId) (c : Channel) : (s.setChan x c).chan x = c := by
  cases x <;> rfl

/-- Writing one channel leaves the other alone. -/
theorem chan_setChan_other (s : State) (x y : ChannelId) (c : Channel) (h : y ≠ x) :
    (s.setChan x c).chan y = s.chan y := by
  cases x <;> cases y <;> first | rfl | exact absurd rfl h

/-- Two writes of one channel: the later one stands. -/
theorem setChan_setChan (s : State) (x : ChannelId) (c d : Channel) : (s.setChan x c).setChan x d = s.setChan x d := by
  cases x <;> rfl

/-! The state after reset (R47) -/

@[simp] theorem afterReset_cfg (c : Config) (cs : List Cycle) (k : Nat) :
    (State.afterReset c cs k).cfg = c := rfl
@[simp] theorem afterReset_psel (c : Config) (cs : List Cycle) (k : Nat) :
    (State.afterReset c cs k).psel = .none := rfl
@[simp] theorem afterReset_reload (c : Config) (cs : List Cycle) (k : Nat) :
    (State.afterReset c cs k).reload = drawBits 16 k := rfl
@[simp] theorem afterReset_run (c : Config) (cs : List Cycle) (k : Nat) :
    (State.afterReset c cs k).run = .stopped := rfl
@[simp] theorem afterReset_cnt (c : Config) (cs : List Cycle) (k : Nat) :
    (State.afterReset c cs k).cnt = drawBits 16 (k + 1) := rfl
@[simp] theorem afterReset_dir (c : Config) (cs : List Cycle) (k : Nat) :
    (State.afterReset c cs k).dir = drawDir (k + 2) := rfl
@[simp] theorem afterReset_phase (c : Config) (cs : List Cycle) (k : Nat) :
    (State.afterReset c cs k).phase = drawAnyPhase (k + 3) := rfl
@[simp] theorem afterReset_chA (c : Config) (cs : List Cycle) (k : Nat) :
    (State.afterReset c cs k).chA = ⟨false, drawBits 16 (k + 4), false⟩ := rfl
@[simp] theorem afterReset_chB (c : Config) (cs : List Cycle) (k : Nat) :
    (State.afterReset c cs k).chB = ⟨false, drawBits 16 (k + 5), false⟩ := rfl
@[simp] theorem afterReset_ovf (c : Config) (cs : List Cycle) (k : Nat) :
    (State.afterReset c cs k).ovf = false := rfl
@[simp] theorem afterReset_ovie (c : Config) (cs : List Cycle) (k : Nat) :
    (State.afterReset c cs k).ovie = false := rfl
@[simp] theorem afterReset_cbv (c : Config) (cs : List Cycle) (k : Nat) :
    (State.afterReset c cs k).cbv = false := rfl
@[simp] theorem afterReset_handle (c : Config) (cs : List Cycle) (k : Nat) :
    (State.afterReset c cs k).handle = drawBits 32 (k + 6) := rfl
@[simp] theorem afterReset_argPeriod (c : Config) (cs : List Cycle) (k : Nat) :
    (State.afterReset c cs k).argPeriod = 0 := rfl
@[simp] theorem afterReset_argHandle (c : Config) (cs : List Cycle) (k : Nat) :
    (State.afterReset c cs k).argHandle = 0 := rfl
@[simp] theorem afterReset_phaseLoaded (c : Config) (cs : List Cycle) (k : Nat) :
    (State.afterReset c cs k).phaseLoaded = false := rfl
@[simp] theorem afterReset_inputs (c : Config) (cs : List Cycle) (k : Nat) :
    (State.afterReset c cs k).inputs = cs := rfl
@[simp] theorem afterReset_rdata (c : Config) (cs : List Cycle) (k : Nat) :
    (State.afterReset c cs k).rdata = none := rfl
@[simp] theorem afterReset_draws (c : Config) (cs : List Cycle) (k : Nat) :
    (State.afterReset c cs k).draws = k + 7 := rfl

end Sys2Proof.Machine
end

