-- ==== Sys2Proof/Laws/Ops.lean ====
section
/-! SUPPORT. What the shared operations do, said once: draws, divisors, the calculator, the phase loads, the compare
value. -/

namespace Sys2Proof.Machine

/-! Divisors and draws -/

theorem div?_bounds {c : Psel} {n : Nat} (h : c.div? = some n) : 1 ≤ n ∧ n ≤ 1024 := by
  cases c <;> simp [Psel.div?] at h <;> omega

theorem div?_eq_none {c : Psel} : c.div? = Option.none ↔ c = .none := by cases c <;> simp [Psel.div?]

/-- Two selectors with one divisor are one selector. -/
theorem div?_inj {c d : Psel} {n : Nat} (hc : c.div? = some n) (hd : d.div? = some n) : c = d := by
  cases c <;> cases d <;> simp [Psel.div?] at hc hd <;> first | rfl | omega

/-- A draw from `1 .. n` is in `1 .. n` (R11). -/
theorem drawUpTo_bounds {n : Nat} (k : Nat) (h : 1 ≤ n) : 1 ≤ drawUpTo n k ∧ drawUpTo n k ≤ n := by
  unfold drawUpTo
  split
  · omega
  · have := Nat.mod_lt (Config.freeValue k) (show 0 < n by omega)
    omega

/-- A phase up to 1024 fits its eleven bits (R24). -/
theorem toNat_phase {k : Nat} (h : k ≤ 1024) : (BitVec.ofNat 11 k).toNat = k := by
  simp only [BitVec.toNat_ofNat]; omega

/-! The calculator -/

/-- The calculator's five cases, each with the condition that selects it (R77, R83). -/
theorem periodConfig_cases (clkHz us : Nat) :
    let cy := cycles clkHz us
    (cy < 65536 ∧ periodConfig clkHz us = (.div1, BitVec.ofNat 16 cy)) ∨
    (65536 ≤ cy ∧ cy < 524288 ∧ periodConfig clkHz us = (.div8, BitVec.ofNat 16 (cy / 8))) ∨
    (524288 ≤ cy ∧ cy < 4194304 ∧ periodConfig clkHz us = (.div64, BitVec.ofNat 16 (cy / 64))) ∨
    (4194304 ≤ cy ∧ cy < 16777216 ∧ periodConfig clkHz us = (.div256, BitVec.ofNat 16 (cy / 256))) ∨
    (16777216 ≤ cy ∧ cy < 67108864 ∧ periodConfig clkHz us = (.div1024, BitVec.ofNat 16 (cy / 1024))) ∨
    (67108864 ≤ cy ∧ periodConfig clkHz us = (.div1024, 65535)) := by
  simp only [periodConfig, prescalers, firstFit, Nat.div_one]
  generalize cycles clkHz us = cy
  by_cases h1 : cy < 65536
  · simp [h1]
  by_cases h2 : cy / 8 < 65536
  · simp [h1, h2]; omega
  by_cases h3 : cy / 64 < 65536
  · simp [h1, h2, h3]; omega
  by_cases h4 : cy / 256 < 65536
  · simp [h1, h2, h3, h4]; omega
  by_cases h5 : cy / 1024 < 65536
  · simp [h1, h2, h3, h4, h5]; omega
  · simp [h1, h2, h3, h4, h5]; omega

/-- The calculator always selects a divisor (R77). -/
theorem periodConfig_div? (clkHz us : Nat) : ∃ n, (periodConfig clkHz us).1.div? = some n := by
  rcases periodConfig_cases clkHz us with ⟨_, h⟩ | ⟨_, _, h⟩ | ⟨_, _, h⟩ | ⟨_, _, h⟩ | ⟨_, _, h⟩ | ⟨_, h⟩ <;>
    simp [h, Psel.div?]

/-! The converter -/

/-- The compare value as a number: it fits its sixteen bits (R96). -/
theorem conv_toNat (fs : FullScale) (r : Half) (duty : Nat) :
    (conv fs r duty).toNat = (r.toNat * clampDuty fs duty + fs.value / 2) / fs.value := by
  have hr := r.isLt
  have hd : clampDuty fs duty ≤ fs.value := Nat.min_le_right _ _
  have hm : r.toNat * clampDuty fs duty ≤ r.toNat * fs.value := Nat.mul_le_mul_left _ hd
  simp only [conv, BitVec.toNat_ofNat]
  apply Nat.mod_eq_of_lt
  cases fs <;> simp only [FullScale.value] at * <;> omega

/-! The phase loads and the period -/

/-- `loadPhaseOfPsel` draws one element of `1 .. DIV(PSEL)`, or does nothing (R109). -/
theorem loadPhaseOfPsel_phaseDrawn (s : State) : PhaseDrawn s s.loadPhaseOfPsel := by
  unfold State.loadPhaseOfPsel PhaseDrawn
  cases h : s.psel.div? with
  | none => exact .inl ⟨rfl, rfl⟩
  | some d =>
    have := drawUpTo_bounds s.draws (div?_bounds h).1
    exact .inr ⟨d, _, _, rfl, this.1, this.2, rfl⟩

/-- `applyPeriod` is `apply_period(ARG_PERIOD)` of R78. -/
theorem applyPeriod_periodApplied (s : State) : PeriodApplied s s.applyPeriod := by
  obtain ⟨d, hd⟩ := periodConfig_div? s.cfg.clkHz s.argPeriod.toNat
  unfold State.applyPeriod State.requestedConfig PeriodApplied
  by_cases h : s.run = .counting ∧ (periodConfig s.cfg.clkHz s.argPeriod.toNat).1 ≠ s.psel
  · have := drawUpTo_bounds s.draws (div?_bounds hd).1
    refine .inr ⟨d, _, s.draws + 1, h.1, h.2, hd, this.1, this.2, ?_⟩
    simp only [hd, if_pos h]
    rfl
  · refine .inl ⟨h, ?_⟩
    simp only [if_neg h]
    rfl

/-- `startCounting` is `START`'s pseudocode (R89). -/
theorem startCounting_phaseDrawn (s : State) :
    PhaseDrawn { s with cnt := 0, dir := .up, ovf := false, run := .counting } s.startCounting :=
  loadPhaseOfPsel_phaseDrawn _

/-! What a phase load and a period command leave unchanged -/

@[simp] theorem loadPhaseOfPsel_cfg (s : State) : s.loadPhaseOfPsel.cfg = s.cfg := by
  unfold State.loadPhaseOfPsel; split <;> rfl
@[simp] theorem loadPhaseOfPsel_psel (s : State) : s.loadPhaseOfPsel.psel = s.psel := by
  unfold State.loadPhaseOfPsel; split <;> rfl
@[simp] theorem loadPhaseOfPsel_reload (s : State) : s.loadPhaseOfPsel.reload = s.reload := by
  unfold State.loadPhaseOfPsel; split <;> rfl
@[simp] theorem loadPhaseOfPsel_run (s : State) : s.loadPhaseOfPsel.run = s.run := by
  unfold State.loadPhaseOfPsel; split <;> rfl
@[simp] theorem loadPhaseOfPsel_cnt (s : State) : s.loadPhaseOfPsel.cnt = s.cnt := by
  unfold State.loadPhaseOfPsel; split <;> rfl
@[simp] theorem loadPhaseOfPsel_dir (s : State) : s.loadPhaseOfPsel.dir = s.dir := by
  unfold State.loadPhaseOfPsel; split <;> rfl
@[simp] theorem loadPhaseOfPsel_chA (s : State) : s.loadPhaseOfPsel.chA = s.chA := by
  unfold State.loadPhaseOfPsel; split <;> rfl
@[simp] theorem loadPhaseOfPsel_chB (s : State) : s.loadPhaseOfPsel.chB = s.chB := by
  unfold State.loadPhaseOfPsel; split <;> rfl
@[simp] theorem loadPhaseOfPsel_ovf (s : State) : s.loadPhaseOfPsel.ovf = s.ovf := by
  unfold State.loadPhaseOfPsel; split <;> rfl
@[simp] theorem loadPhaseOfPsel_ovie (s : State) : s.loadPhaseOfPsel.ovie = s.ovie := by
  unfold State.loadPhaseOfPsel; split <;> rfl
@[simp] theorem loadPhaseOfPsel_cbv (s : State) : s.loadPhaseOfPsel.cbv = s.cbv := by
  unfold State.loadPhaseOfPsel; split <;> rfl
@[simp] theorem loadPhaseOfPsel_handle (s : State) : s.loadPhaseOfPsel.handle = s.handle := by
  unfold State.loadPhaseOfPsel; split <;> rfl
@[simp] theorem loadPhaseOfPsel_argPeriod (s : State) : s.loadPhaseOfPsel.argPeriod = s.argPeriod := by
  unfold State.loadPhaseOfPsel; split <;> rfl
@[simp] theorem loadPhaseOfPsel_argHandle (s : State) : s.loadPhaseOfPsel.argHandle = s.argHandle := by
  unfold State.loadPhaseOfPsel; split <;> rfl
@[simp] theorem loadPhaseOfPsel_inputs (s : State) : s.loadPhaseOfPsel.inputs = s.inputs := by
  unfold State.loadPhaseOfPsel; split <;> rfl
@[simp] theorem loadPhaseOfPsel_rdata (s : State) : s.loadPhaseOfPsel.rdata = s.rdata := by
  unfold State.loadPhaseOfPsel; split <;> rfl
@[simp] theorem applyPeriod_cfg (s : State) : s.applyPeriod.cfg = s.cfg := by
  unfold State.applyPeriod; repeat' split
  all_goals rfl
@[simp] theorem applyPeriod_run (s : State) : s.applyPeriod.run = s.run := by
  unfold State.applyPeriod; repeat' split
  all_goals rfl
@[simp] theorem applyPeriod_cnt (s : State) : s.applyPeriod.cnt = s.cnt := by
  unfold State.applyPeriod; repeat' split
  all_goals rfl
@[simp] theorem applyPeriod_dir (s : State) : s.applyPeriod.dir = s.dir := by
  unfold State.applyPeriod; repeat' split
  all_goals rfl
@[simp] theorem applyPeriod_chA (s : State) : s.applyPeriod.chA = s.chA := by
  unfold State.applyPeriod; repeat' split
  all_goals rfl
@[simp] theorem applyPeriod_chB (s : State) : s.applyPeriod.chB = s.chB := by
  unfold State.applyPeriod; repeat' split
  all_goals rfl
@[simp] theorem applyPeriod_ovf (s : State) : s.applyPeriod.ovf = s.ovf := by
  unfold State.applyPeriod; repeat' split
  all_goals rfl
@[simp] theorem applyPeriod_ovie (s : State) : s.applyPeriod.ovie = s.ovie := by
  unfold State.applyPeriod; repeat' split
  all_goals rfl
@[simp] theorem applyPeriod_cbv (s : State) : s.applyPeriod.cbv = s.cbv := by
  unfold State.applyPeriod; repeat' split
  all_goals rfl
@[simp] theorem applyPeriod_handle (s : State) : s.applyPeriod.handle = s.handle := by
  unfold State.applyPeriod; repeat' split
  all_goals rfl
@[simp] theorem applyPeriod_argPeriod (s : State) : s.applyPeriod.argPeriod = s.argPeriod := by
  unfold State.applyPeriod; repeat' split
  all_goals rfl
@[simp] theorem applyPeriod_argHandle (s : State) : s.applyPeriod.argHandle = s.argHandle := by
  unfold State.applyPeriod; repeat' split
  all_goals rfl
@[simp] theorem applyPeriod_inputs (s : State) : s.applyPeriod.inputs = s.inputs := by
  unfold State.applyPeriod; repeat' split
  all_goals rfl
@[simp] theorem applyPeriod_rdata (s : State) : s.applyPeriod.rdata = s.rdata := by
  unfold State.applyPeriod; repeat' split
  all_goals rfl
@[simp] theorem applyPeriod_psel (s : State) : s.applyPeriod.psel = s.requestedConfig.1 := rfl
@[simp] theorem applyPeriod_reload (s : State) : s.applyPeriod.reload = s.requestedConfig.2 := rfl
@[simp] theorem applyPeriodIf_cfg (s : State) (p : Bool) : (s.applyPeriodIf p).cfg = s.cfg := by
  cases p <;> simp [State.applyPeriodIf]
@[simp] theorem applyPeriodIf_run (s : State) (p : Bool) : (s.applyPeriodIf p).run = s.run := by
  cases p <;> simp [State.applyPeriodIf]
@[simp] theorem applyPeriodIf_cnt (s : State) (p : Bool) : (s.applyPeriodIf p).cnt = s.cnt := by
  cases p <;> simp [State.applyPeriodIf]
@[simp] theorem applyPeriodIf_dir (s : State) (p : Bool) : (s.applyPeriodIf p).dir = s.dir := by
  cases p <;> simp [State.applyPeriodIf]
@[simp] theorem applyPeriodIf_chA (s : State) (p : Bool) : (s.applyPeriodIf p).chA = s.chA := by
  cases p <;> simp [State.applyPeriodIf]
@[simp] theorem applyPeriodIf_chB (s : State) (p : Bool) : (s.applyPeriodIf p).chB = s.chB := by
  cases p <;> simp [State.applyPeriodIf]
@[simp] theorem applyPeriodIf_ovf (s : State) (p : Bool) : (s.applyPeriodIf p).ovf = s.ovf := by
  cases p <;> simp [State.applyPeriodIf]
@[simp] theorem applyPeriodIf_ovie (s : State) (p : Bool) : (s.applyPeriodIf p).ovie = s.ovie := by
  cases p <;> simp [State.applyPeriodIf]
@[simp] theorem applyPeriodIf_cbv (s : State) (p : Bool) : (s.applyPeriodIf p).cbv = s.cbv := by
  cases p <;> simp [State.applyPeriodIf]
@[simp] theorem applyPeriodIf_handle (s : State) (p : Bool) : (s.applyPeriodIf p).handle = s.handle := by
  cases p <;> simp [State.applyPeriodIf]
@[simp] theorem applyPeriodIf_argPeriod (s : State) (p : Bool) : (s.applyPeriodIf p).argPeriod = s.argPeriod := by
  cases p <;> simp [State.applyPeriodIf]
@[simp] theorem applyPeriodIf_argHandle (s : State) (p : Bool) : (s.applyPeriodIf p).argHandle = s.argHandle := by
  cases p <;> simp [State.applyPeriodIf]
@[simp] theorem applyPeriodIf_inputs (s : State) (p : Bool) : (s.applyPeriodIf p).inputs = s.inputs := by
  cases p <;> simp [State.applyPeriodIf]
@[simp] theorem applyPeriodIf_rdata (s : State) (p : Bool) : (s.applyPeriodIf p).rdata = s.rdata := by
  cases p <;> simp [State.applyPeriodIf]
@[simp] theorem startCounting_cfg (s : State) : s.startCounting.cfg = s.cfg := by
  simp [State.startCounting]
@[simp] theorem startCounting_psel (s : State) : s.startCounting.psel = s.psel := by
  simp [State.startCounting]
@[simp] theorem startCounting_reload (s : State) : s.startCounting.reload = s.reload := by
  simp [State.startCounting]
@[simp] theorem startCounting_run (s : State) : s.startCounting.run = .counting := by
  simp [State.startCounting]
@[simp] theorem startCounting_cnt (s : State) : s.startCounting.cnt = 0 := by
  simp [State.startCounting]
@[simp] theorem startCounting_dir (s : State) : s.startCounting.dir = .up := by
  simp [State.startCounting]
@[simp] theorem startCounting_chA (s : State) : s.startCounting.chA = s.chA := by
  simp [State.startCounting]
@[simp] theorem startCounting_chB (s : State) : s.startCounting.chB = s.chB := by
  simp [State.startCounting]
@[simp] theorem startCounting_ovf (s : State) : s.startCounting.ovf = false := by
  simp [State.startCounting]
@[simp] theorem startCounting_ovie (s : State) : s.startCounting.ovie = s.ovie := by
  simp [State.startCounting]
@[simp] theorem startCounting_cbv (s : State) : s.startCounting.cbv = s.cbv := by
  simp [State.startCounting]
@[simp] theorem startCounting_handle (s : State) : s.startCounting.handle = s.handle := by
  simp [State.startCounting]
@[simp] theorem startCounting_argPeriod (s : State) : s.startCounting.argPeriod = s.argPeriod := by
  simp [State.startCounting]
@[simp] theorem startCounting_argHandle (s : State) : s.startCounting.argHandle = s.argHandle := by
  simp [State.startCounting]
@[simp] theorem startCounting_inputs (s : State) : s.startCounting.inputs = s.inputs := by
  simp [State.startCounting]
@[simp] theorem startCounting_rdata (s : State) : s.startCounting.rdata = s.rdata := by
  simp [State.startCounting]
@[simp] theorem setCompare_cfg (s : State) (x : ChannelId) (d : Nat) : (s.setCompare x d).cfg = s.cfg := by
  simp [State.setCompare]
@[simp] theorem setCompare_psel (s : State) (x : ChannelId) (d : Nat) : (s.setCompare x d).psel = s.psel := by
  simp [State.setCompare]
@[simp] theorem setCompare_reload (s : State) (x : ChannelId) (d : Nat) : (s.setCompare x d).reload = s.reload := by
  simp [State.setCompare]
@[simp] theorem setCompare_run (s : State) (x : ChannelId) (d : Nat) : (s.setCompare x d).run = s.run := by
  simp [State.setCompare]
@[simp] theorem setCompare_cnt (s : State) (x : ChannelId) (d : Nat) : (s.setCompare x d).cnt = s.cnt := by
  simp [State.setCompare]
@[simp] theorem setCompare_dir (s : State) (x : ChannelId) (d : Nat) : (s.setCompare x d).dir = s.dir := by
  simp [State.setCompare]
@[simp] theorem setCompare_phase (s : State) (x : ChannelId) (d : Nat) : (s.setCompare x d).phase = s.phase := by
  simp [State.setCompare]
@[simp] theorem setCompare_ovf (s : State) (x : ChannelId) (d : Nat) : (s.setCompare x d).ovf = s.ovf := by
  simp [State.setCompare]
@[simp] theorem setCompare_ovie (s : State) (x : ChannelId) (d : Nat) : (s.setCompare x d).ovie = s.ovie := by
  simp [State.setCompare]
@[simp] theorem setCompare_cbv (s : State) (x : ChannelId) (d : Nat) : (s.setCompare x d).cbv = s.cbv := by
  simp [State.setCompare]
@[simp] theorem setCompare_handle (s : State) (x : ChannelId) (d : Nat) : (s.setCompare x d).handle = s.handle := by
  simp [State.setCompare]
@[simp] theorem setCompare_argPeriod (s : State) (x : ChannelId) (d : Nat) : (s.setCompare x d).argPeriod = s.argPeriod := by
  simp [State.setCompare]
@[simp] theorem setCompare_argHandle (s : State) (x : ChannelId) (d : Nat) : (s.setCompare x d).argHandle = s.argHandle := by
  simp [State.setCompare]
@[simp] theorem setCompare_phaseLoaded (s : State) (x : ChannelId) (d : Nat) : (s.setCompare x d).phaseLoaded = s.phaseLoaded := by
  simp [State.setCompare]
@[simp] theorem setCompare_inputs (s : State) (x : ChannelId) (d : Nat) : (s.setCompare x d).inputs = s.inputs := by
  simp [State.setCompare]
@[simp] theorem setCompare_rdata (s : State) (x : ChannelId) (d : Nat) : (s.setCompare x d).rdata = s.rdata := by
  simp [State.setCompare]
@[simp] theorem setCompare_draws (s : State) (x : ChannelId) (d : Nat) : (s.setCompare x d).draws = s.draws := by
  simp [State.setCompare]

/-- The same request asks for the same configuration, whatever the configuration is (R86). -/
@[simp] theorem applyPeriod_requestedConfig (s : State) : s.applyPeriod.requestedConfig = s.requestedConfig := by
  simp [State.requestedConfig]

/-- Applying the same period again changes nothing: the selector is unchanged, so `PHASE` is not drawn (R78, R86). -/
theorem applyPeriod_applyPeriod (s : State) : s.applyPeriod.applyPeriod = s.applyPeriod := by
  have same : ∀ (u : State) (c : Psel) (r : Half), c = u.psel → r = u.reload → u.setClock c r = u := by
    rintro u _ _ rfl rfl; rfl
  have hc : ¬ (s.applyPeriod.run = .counting ∧ s.applyPeriod.requestedConfig.1 ≠ s.applyPeriod.psel) := by
    rintro ⟨_, h⟩; exact h (by simp)
  have unchanged : ∀ u : State, ¬ (u.run = .counting ∧ u.requestedConfig.1 ≠ u.psel) →
      u.applyPeriod = u.setClock u.requestedConfig.1 u.requestedConfig.2 := by
    intro u h
    unfold State.applyPeriod
    simp only [if_neg h]
  rw [unchanged _ hc]
  exact same _ _ _ (by simp) (by simp)

/-- Where a period command noted no load, it left the phase alone (R78, R109). -/
theorem applyPeriod_phase_of_unloaded {s : State} (h : s.applyPeriod.phaseLoaded = false) :
    s.applyPeriod.phase = s.phase := by
  obtain ⟨_, e⟩ | ⟨_, _, _, _, _, _, _, _, e⟩ := applyPeriod_periodApplied s
  · rw [e]
  · rw [e] at h; cases h

theorem applyPeriodIf_phase_of_unloaded {s : State} (p : Bool) (h : (s.applyPeriodIf p).phaseLoaded = false) :
    (s.applyPeriodIf p).phase = s.phase := by
  cases p with
  | false => rfl
  | true => exact applyPeriod_phase_of_unloaded h

/-- Where a start or a resume noted no load, it left the phase alone (R109). -/
theorem loadPhaseOfPsel_phase_of_unloaded {s : State} (h : s.loadPhaseOfPsel.phaseLoaded = false) :
    s.loadPhaseOfPsel.phase = s.phase := by
  obtain ⟨_, e⟩ | ⟨_, _, _, _, _, _, e⟩ := loadPhaseOfPsel_phaseDrawn s
  · rw [e]
  · rw [e] at h; cases h

/-- A clocked counter counts with its stored selector (R22). -/
theorem ecs_div? {s : State} {n : Nat} (h : s.ecs.div? = some n) :
    s.run = .counting ∧ s.psel ≠ .none ∧ s.psel.div? = some n := by
  unfold State.ecs at h
  cases hr : s.run with
  | stopped => rw [hr] at h; cases h
  | counting =>
    rw [hr] at h
    refine ⟨rfl, ?_, h⟩
    intro e
    rw [e] at h
    cases h

/-- While Counting, the effective selector is the stored one (R22). -/
theorem ecs_counting {s : State} (h : s.run = .counting) : s.ecs = s.psel := by
  simp only [State.ecs, h]

/-- While Stopped, none is effective (R22). -/
theorem ecs_stopped {s : State} (h : s.run = .stopped) : s.ecs = .none := by
  simp only [State.ecs, h]

end Sys2Proof.Machine
end

