-- ==== Sys2Proof/Laws/Counter.lean ====
section
/-! SUPPORT. What a tick and a clock cycle do, said once. -/

namespace Sys2Proof.Machine

/-! `tick`, case by case (R111, R112) -/

theorem tick_zero {s : State} (h : s.reload = 0) : s.tick = { s with cnt := 0, dir := .up, ovf := true } := by
  unfold State.tick; rw [if_pos h]; rfl

theorem tick_up {s : State} (h : s.reload ≠ 0) (hd : s.dir = .up) (hc : s.cnt < s.reload) :
    s.tick = { s with cnt := s.cnt + 1, dir := .up } := by
  simp only [State.tick, h, hd, hc, ite_true, ite_false]; rfl

theorem tick_turn {s : State} (h : s.reload ≠ 0) (hd : s.dir = .up) (hc : ¬ s.cnt < s.reload) (h1 : s.cnt - 1 ≠ 0) :
    s.tick = { s with cnt := s.cnt - 1, dir := .down } := by
  simp only [State.tick, h, hd, hc, h1, ite_false]; rfl

theorem tick_turn_zero {s : State} (h : s.reload ≠ 0) (hd : s.dir = .up) (hc : ¬ s.cnt < s.reload)
    (h1 : s.cnt - 1 = 0) : s.tick = { s with cnt := 0, dir := .up, ovf := true } := by
  simp only [State.tick, h, hd, hc, h1, ite_true, ite_false]; rfl

theorem tick_down {s : State} (h : s.reload ≠ 0) (hd : s.dir = .down) (hc : ¬ s.cnt ≤ 1) :
    s.tick = { s with cnt := s.cnt - 1, dir := .down } := by
  simp only [State.tick, h, hd, hc, ite_false]; rfl

theorem tick_down_zero {s : State} (h : s.reload ≠ 0) (hd : s.dir = .down) (hc : s.cnt ≤ 1) :
    s.tick = { s with cnt := 0, dir := .up, ovf := true } := by
  simp only [State.tick, h, hd, hc, ite_true, ite_false]; rfl

/-- Everything a tick can do: it moves the counter, and it raises the overflow flag or leaves it (R111, R112, R114). -/
theorem tick_shape (s : State) :
    ∃ c d, s.tick = { s with cnt := c, dir := d } ∨ s.tick = { s with cnt := c, dir := d, ovf := true } := by
  by_cases h : s.reload = 0
  · exact ⟨_, _, .inr (tick_zero h)⟩
  cases hd : s.dir with
  | up =>
    by_cases hc : s.cnt < s.reload
    · exact ⟨_, _, .inl (tick_up h hd hc)⟩
    by_cases h1 : s.cnt - 1 = 0
    · exact ⟨_, _, .inr (tick_turn_zero h hd hc h1)⟩
    · exact ⟨_, _, .inl (tick_turn h hd hc h1)⟩
  | down =>
    by_cases hc : s.cnt ≤ 1
    · exact ⟨_, _, .inr (tick_down_zero h hd hc)⟩
    · exact ⟨_, _, .inl (tick_down h hd hc)⟩

/-- A pending overflow stays pending through a tick (R114, R119). -/
theorem tick_keeps_ovf {s : State} (h : s.ovf = true) : s.tick.ovf = true := by
  obtain ⟨c, d, e | e⟩ := tick_shape s <;> rw [e]
  exact h

@[simp] theorem tick_cfg (s : State) : s.tick.cfg = s.cfg := by
  obtain ⟨c, d, e | e⟩ := tick_shape s <;> rw [e]
@[simp] theorem tick_psel (s : State) : s.tick.psel = s.psel := by
  obtain ⟨c, d, e | e⟩ := tick_shape s <;> rw [e]
@[simp] theorem tick_reload (s : State) : s.tick.reload = s.reload := by
  obtain ⟨c, d, e | e⟩ := tick_shape s <;> rw [e]
@[simp] theorem tick_run (s : State) : s.tick.run = s.run := by
  obtain ⟨c, d, e | e⟩ := tick_shape s <;> rw [e]
@[simp] theorem tick_phase (s : State) : s.tick.phase = s.phase := by
  obtain ⟨c, d, e | e⟩ := tick_shape s <;> rw [e]
@[simp] theorem tick_chA (s : State) : s.tick.chA = s.chA := by
  obtain ⟨c, d, e | e⟩ := tick_shape s <;> rw [e]
@[simp] theorem tick_chB (s : State) : s.tick.chB = s.chB := by
  obtain ⟨c, d, e | e⟩ := tick_shape s <;> rw [e]
@[simp] theorem tick_ovie (s : State) : s.tick.ovie = s.ovie := by
  obtain ⟨c, d, e | e⟩ := tick_shape s <;> rw [e]
@[simp] theorem tick_cbv (s : State) : s.tick.cbv = s.cbv := by
  obtain ⟨c, d, e | e⟩ := tick_shape s <;> rw [e]
@[simp] theorem tick_handle (s : State) : s.tick.handle = s.handle := by
  obtain ⟨c, d, e | e⟩ := tick_shape s <;> rw [e]
@[simp] theorem tick_argPeriod (s : State) : s.tick.argPeriod = s.argPeriod := by
  obtain ⟨c, d, e | e⟩ := tick_shape s <;> rw [e]
@[simp] theorem tick_argHandle (s : State) : s.tick.argHandle = s.argHandle := by
  obtain ⟨c, d, e | e⟩ := tick_shape s <;> rw [e]
@[simp] theorem tick_phaseLoaded (s : State) : s.tick.phaseLoaded = s.phaseLoaded := by
  obtain ⟨c, d, e | e⟩ := tick_shape s <;> rw [e]
@[simp] theorem tick_inputs (s : State) : s.tick.inputs = s.inputs := by
  obtain ⟨c, d, e | e⟩ := tick_shape s <;> rw [e]
@[simp] theorem tick_rdata (s : State) : s.tick.rdata = s.rdata := by
  obtain ⟨c, d, e | e⟩ := tick_shape s <;> rw [e]
@[simp] theorem tick_draws (s : State) : s.tick.draws = s.draws := by
  obtain ⟨c, d, e | e⟩ := tick_shape s <;> rw [e]

/-- A tick reads `RELOAD`, `CNT`, `DIR` and nothing else: it commutes with any change of the other elements. -/
theorem tick_congr (s : State) (p : BitVec 11) (v : Option Word) :
    { s with phase := p, rdata := v }.tick = { s.tick with phase := p, rdata := v } := by
  unfold State.tick
  by_cases h : s.reload = 0
  · rw [if_pos h, if_pos h]; rfl
  · rw [if_neg h, if_neg h]
    cases s.dir <;> simp only <;> repeat' split
    all_goals rfl

/-- Whether a tick raises an overflow event: with `RELOAD = 0`, at a turn that reaches 0, or on the way down at 0 or 1
(R111, R112). -/
theorem tick_ovf_cases (s : State) :
    ((s.reload = 0 ∨ (s.dir = .up ∧ ¬ s.cnt < s.reload ∧ s.cnt - 1 = 0) ∨ (s.dir = .down ∧ s.cnt ≤ 1)) ∧ s.tick.ovf = true) ∨
    (¬ (s.reload = 0 ∨ (s.dir = .up ∧ ¬ s.cnt < s.reload ∧ s.cnt - 1 = 0) ∨ (s.dir = .down ∧ s.cnt ≤ 1)) ∧
      s.tick.ovf = s.ovf) := by
  by_cases h : s.reload = 0
  · exact .inl ⟨.inl h, by rw [tick_zero h]⟩
  cases hd : s.dir with
  | up =>
    by_cases hc : s.cnt < s.reload
    · refine .inr ⟨?_, by rw [tick_up h hd hc]⟩
      rintro (e | ⟨_, e, _⟩ | ⟨e, _⟩)
      · exact h e
      · exact e hc
      · cases e
    by_cases h1 : s.cnt - 1 = 0
    · exact .inl ⟨.inr (.inl ⟨rfl, hc, h1⟩), by rw [tick_turn_zero h hd hc h1]⟩
    · refine .inr ⟨?_, by rw [tick_turn h hd hc h1]⟩
      rintro (e | ⟨_, _, e⟩ | ⟨e, _⟩)
      · exact h e
      · exact h1 e
      · cases e
  | down =>
    by_cases hc : s.cnt ≤ 1
    · exact .inl ⟨.inr (.inr ⟨rfl, hc⟩), by rw [tick_down_zero h hd hc]⟩
    · refine .inr ⟨?_, by rw [tick_down h hd hc]⟩
      rintro (e | ⟨e, _⟩ | ⟨_, e⟩)
      · exact h e
      · cases e
      · exact hc e

/-- Whether a tick raises an overflow event depends on `RELOAD`, `CNT` and `DIR` only. -/
theorem tickOverflows_congr {s u : State} (hr : u.reload = s.reload) (hc : u.cnt = s.cnt) (hd : u.dir = s.dir) :
    u.tickOverflows = s.tickOverflows := by
  unfold State.tickOverflows
  obtain ⟨a, e⟩ | ⟨a, e⟩ := tick_ovf_cases (u.setOvf false) <;>
    obtain ⟨b, f⟩ | ⟨b, f⟩ := tick_ovf_cases (s.setOvf false) <;> rw [e, f]
  · exact absurd (by simpa [hr, hc, hd] using a) b
  · exact absurd (by simpa [hr, hc, hd] using b) a
  · rfl

/-- A tick leaves `OVF` set where it was set or where it raises an overflow event, and nowhere else (R114). -/
theorem tick_ovf (s : State) : s.tick.ovf = (s.ovf || s.tickOverflows) := by
  unfold State.tickOverflows
  obtain ⟨a, e⟩ | ⟨a, e⟩ := tick_ovf_cases s <;>
    obtain ⟨b, f⟩ | ⟨b, f⟩ := tick_ovf_cases (s.setOvf false) <;> rw [e, f]
  · simp
  · exact absurd (by simpa using a) b
  · exact absurd (by simpa using b) a
  · simp

/-- Where a tick takes the counter depends on `RELOAD`, `CNT` and `DIR` only (R111). -/
theorem tick_counter_congr {s u : State} (hr : u.reload = s.reload) (hc : u.cnt = s.cnt) (hd : u.dir = s.dir) :
    u.tick.cnt = s.tick.cnt ∧ u.tick.dir = s.tick.dir := by
  unfold State.tick
  rw [hr, hc, hd]
  by_cases hz : s.reload = 0
  · rw [if_pos hz, if_pos hz]; exact ⟨rfl, rfl⟩
  · rw [if_neg hz, if_neg hz]
    cases s.dir <;> simp only <;> (repeat' split) <;> exact ⟨rfl, rfl⟩

/-! `clockCycle`, case by case (R110) -/

theorem clockCycle_unclocked {s : State} (h : s.ecs.div? = none) : s.clockCycle = { s with phaseLoaded := false } := by
  simp only [State.clockCycle, h]; rfl

theorem clockCycle_loaded {s : State} (h : s.phaseLoaded = true) : s.clockCycle = { s with phaseLoaded := false } := by
  unfold State.clockCycle
  cases s.ecs.div? <;> simp only [h, ite_true] <;> rfl

theorem clockCycle_tick {s : State} {n : Nat} (h : s.ecs.div? = some n) (hl : s.phaseLoaded = false) (hp : s.phase = 1) :
    s.clockCycle = { s.tick with phase := BitVec.ofNat 11 n } := by
  have hn : ¬ s.phaseLoaded = true := by rw [hl]; simp
  have : s.phase - 1 = 0 := by rw [hp]; rfl
  simp only [State.clockCycle, h]
  rw [if_neg hn, if_pos this]; rfl

theorem clockCycle_count {s : State} {n : Nat} (h : s.ecs.div? = some n) (hl : s.phaseLoaded = false) (hp : s.phase ≠ 1) :
    s.clockCycle = { s with phase := s.phase - 1 } := by
  have : ¬ s.phase - 1 = 0 := fun e => hp (by rw [BitVec.sub_eq_iff_eq_add] at e; simpa using e)
  have hn : ¬ s.phaseLoaded = true := by rw [hl]; simp
  simp only [State.clockCycle, h]
  rw [if_neg hn, if_neg this]; rfl

/-- Everything a clock cycle can do (R110). -/
theorem clockCycle_cases (s : State) :
    s.clockCycle = { s with phaseLoaded := false } ∨
    (∃ n, s.ecs.div? = some n ∧ s.phaseLoaded = false ∧ s.phase = 1 ∧
      s.clockCycle = { s.tick with phase := BitVec.ofNat 11 n }) ∨
    (∃ n, s.ecs.div? = some n ∧ s.phaseLoaded = false ∧ s.phase ≠ 1 ∧ s.clockCycle = { s with phase := s.phase - 1 }) := by
  cases h : s.ecs.div? with
  | none => exact .inl (clockCycle_unclocked h)
  | some n =>
    by_cases hl : s.phaseLoaded = true
    · exact .inl (clockCycle_loaded hl)
    · have hl : s.phaseLoaded = false := by simpa using hl
      by_cases hp : s.phase = 1
      · exact .inr (.inl ⟨n, rfl, hl, hp, clockCycle_tick h hl hp⟩)
      · exact .inr (.inr ⟨n, rfl, hl, hp, clockCycle_count h hl hp⟩)

/-- A clock cycle that sets `OVF` holds a tick that raises an overflow event (R110, R114). -/
theorem clockCycle_sets_ovf {s : State} (h : s.ovf = false) (h2 : s.clockCycle.ovf = true) :
    ∃ n, s.ecs.div? = some n ∧ s.phaseLoaded = false ∧ s.phase = 1 ∧ s.tickOverflows = true := by
  obtain e | ⟨n, hn, hl, hp, e⟩ | ⟨n, hn, hl, hp, e⟩ := clockCycle_cases s
  · rw [e] at h2; simp [h] at h2
  · refine ⟨n, hn, hl, hp, ?_⟩
    rw [e] at h2
    have : s.tick.ovf = true := h2
    rw [tick_ovf, h] at this
    simpa using this
  · rw [e] at h2; simp [h] at h2

/-- No tick can share a cycle with a start or a resume: the clock of that cycle only ends the note of the load (R110,
R120). -/
theorem loadPhaseOfPsel_clockCycle (s : State) :
    s.loadPhaseOfPsel.clockCycle = s.loadPhaseOfPsel.clearLoaded := by
  unfold State.loadPhaseOfPsel
  cases h : s.psel.div? with
  | none =>
    refine clockCycle_unclocked ?_
    show s.ecs.div? = none
    unfold State.ecs
    cases s.run <;> first | rfl | exact h
  | some n => exact clockCycle_loaded rfl

theorem startCounting_clockCycle (s : State) : s.startCounting.clockCycle = s.startCounting.clearLoaded :=
  loadPhaseOfPsel_clockCycle _

/-- A clock cycle ends the note that `PHASE` was loaded (R110). -/
@[simp] theorem clockCycle_phaseLoaded (s : State) : s.clockCycle.phaseLoaded = false := by
  obtain h | ⟨n, _, hl, _, h⟩ | ⟨n, _, hl, _, h⟩ := clockCycle_cases s <;> rw [h]
  · simpa using hl
  · exact hl

/-- A pending overflow stays pending through a clock cycle (R114, R119). -/
theorem clockCycle_keeps_ovf {s : State} (h : s.ovf = true) : s.clockCycle.ovf = true := by
  obtain e | ⟨n, _, _, _, e⟩ | ⟨n, _, _, _, e⟩ := clockCycle_cases s <;> rw [e]
  · exact h
  · exact tick_keeps_ovf h
  · exact h

@[simp] theorem clockCycle_cfg (s : State) : s.clockCycle.cfg = s.cfg := by
  obtain h | ⟨n, _, _, _, h⟩ | ⟨n, _, _, _, h⟩ := clockCycle_cases s <;> rw [h]
  exact tick_cfg s
@[simp] theorem clockCycle_psel (s : State) : s.clockCycle.psel = s.psel := by
  obtain h | ⟨n, _, _, _, h⟩ | ⟨n, _, _, _, h⟩ := clockCycle_cases s <;> rw [h]
  exact tick_psel s
@[simp] theorem clockCycle_reload (s : State) : s.clockCycle.reload = s.reload := by
  obtain h | ⟨n, _, _, _, h⟩ | ⟨n, _, _, _, h⟩ := clockCycle_cases s <;> rw [h]
  exact tick_reload s
@[simp] theorem clockCycle_run (s : State) : s.clockCycle.run = s.run := by
  obtain h | ⟨n, _, _, _, h⟩ | ⟨n, _, _, _, h⟩ := clockCycle_cases s <;> rw [h]
  exact tick_run s
@[simp] theorem clockCycle_chA (s : State) : s.clockCycle.chA = s.chA := by
  obtain h | ⟨n, _, _, _, h⟩ | ⟨n, _, _, _, h⟩ := clockCycle_cases s <;> rw [h]
  exact tick_chA s
@[simp] theorem clockCycle_chB (s : State) : s.clockCycle.chB = s.chB := by
  obtain h | ⟨n, _, _, _, h⟩ | ⟨n, _, _, _, h⟩ := clockCycle_cases s <;> rw [h]
  exact tick_chB s
@[simp] theorem clockCycle_ovie (s : State) : s.clockCycle.ovie = s.ovie := by
  obtain h | ⟨n, _, _, _, h⟩ | ⟨n, _, _, _, h⟩ := clockCycle_cases s <;> rw [h]
  exact tick_ovie s
@[simp] theorem clockCycle_cbv (s : State) : s.clockCycle.cbv = s.cbv := by
  obtain h | ⟨n, _, _, _, h⟩ | ⟨n, _, _, _, h⟩ := clockCycle_cases s <;> rw [h]
  exact tick_cbv s
@[simp] theorem clockCycle_handle (s : State) : s.clockCycle.handle = s.handle := by
  obtain h | ⟨n, _, _, _, h⟩ | ⟨n, _, _, _, h⟩ := clockCycle_cases s <;> rw [h]
  exact tick_handle s
@[simp] theorem clockCycle_argPeriod (s : State) : s.clockCycle.argPeriod = s.argPeriod := by
  obtain h | ⟨n, _, _, _, h⟩ | ⟨n, _, _, _, h⟩ := clockCycle_cases s <;> rw [h]
  exact tick_argPeriod s
@[simp] theorem clockCycle_argHandle (s : State) : s.clockCycle.argHandle = s.argHandle := by
  obtain h | ⟨n, _, _, _, h⟩ | ⟨n, _, _, _, h⟩ := clockCycle_cases s <;> rw [h]
  exact tick_argHandle s
@[simp] theorem clockCycle_inputs (s : State) : s.clockCycle.inputs = s.inputs := by
  obtain h | ⟨n, _, _, _, h⟩ | ⟨n, _, _, _, h⟩ := clockCycle_cases s <;> rw [h]
  exact tick_inputs s
@[simp] theorem clockCycle_rdata (s : State) : s.clockCycle.rdata = s.rdata := by
  obtain h | ⟨n, _, _, _, h⟩ | ⟨n, _, _, _, h⟩ := clockCycle_cases s <;> rw [h]
  exact tick_rdata s
@[simp] theorem clockCycle_draws (s : State) : s.clockCycle.draws = s.draws := by
  obtain h | ⟨n, _, _, _, h⟩ | ⟨n, _, _, _, h⟩ := clockCycle_cases s <;> rw [h]
  exact tick_draws s

end Sys2Proof.Machine
end

