-- ==== Sys2Proof/Laws/Decode.lean ====
section
/-! SUPPORT. The fields of an encoded command, and the byte lanes of a word. -/

namespace Sys2Proof

@[simp] theorem fieldOp_formatC (op : BitVec 4) (p : Bool) (ch duty : Nat) : fieldOp (formatC op p ch duty) = op := by
  apply BitVec.eq_of_getLsbD_eq
  intro i hi
  simp only [fieldOp, formatC, BitVec.getLsbD_extractLsb', BitVec.getLsbD_append, Nat.zero_add, hi, decide_true, ite_true,
    Bool.true_and]

@[simp] theorem fieldP_formatC (op : BitVec 4) (p : Bool) (ch duty : Nat) : fieldP (formatC op p ch duty) = p := by
  simp only [fieldP, formatC, BitVec.getLsbD_append]
  rw [if_neg (by omega), if_pos (by omega)]
  simp

theorem fieldCh_formatC (op : BitVec 4) (p : Bool) (ch duty : Nat) : fieldCh (formatC op p ch duty) = ch % 4 := by
  have : (formatC op p ch duty).extractLsb' 5 2 = BitVec.ofNat 2 ch := by
    apply BitVec.eq_of_getLsbD_eq
    intro i hi
    simp only [formatC, BitVec.getLsbD_extractLsb', BitVec.getLsbD_append, hi, decide_true, Bool.true_and]
    rw [if_neg (by omega), if_neg (by omega), if_pos (by omega)]
    congr 1; omega
  simp only [fieldCh, this, BitVec.toNat_ofNat, Nat.reducePow]

theorem fieldDuty_formatC (op : BitVec 4) (p : Bool) (ch duty : Nat) :
    fieldDuty (formatC op p ch duty) = duty % 2048 := by
  have : (formatC op p ch duty).extractLsb' 8 11 = BitVec.ofNat 11 duty := by
    apply BitVec.eq_of_getLsbD_eq
    intro i hi
    simp only [formatC, BitVec.getLsbD_extractLsb', BitVec.getLsbD_append, hi, decide_true, Bool.true_and]
    rw [if_neg (by omega), if_neg (by omega), if_neg (by omega), if_neg (by omega), if_pos (by omega)]
    congr 1; omega
  simp only [fieldDuty, this, BitVec.toNat_ofNat, Nat.reducePow]

/-- The lanes of a word put together again are the word (R52). -/
theorem wordOfLanes_byteLane (w : Word) :
    wordOfLanes (byteLane w 0) (byteLane w 1) (byteLane w 2) (byteLane w 3) = w := by
  apply BitVec.eq_of_getLsbD_eq
  intro i hi
  simp only [wordOfLanes, byteLane, BitVec.getLsbD_append, BitVec.getLsbD_extractLsb']
  split
  · next h => simp [h]
  split
  · next h1 h2 => simp only [h2, decide_true, Bool.true_and]; congr 1; omega
  split
  · next h1 h2 h3 => simp only [h3, decide_true, Bool.true_and]; congr 1; omega
  · next h1 h2 h3 =>
    have : i - 8 - 8 - 8 < 8 := by omega
    simp only [this, decide_true, Bool.true_and]; congr 1; omega

/-- Decoding a word's lanes decodes the word and hands back what follows (R64). -/
theorem decodeBytes_lanes (w : Word) (rest : List Byte) :
    decodeBytes (lanesOfWord w ++ rest) = (decodeWord w).map (fun i => (i, rest)) := by
  simp only [lanesOfWord, List.cons_append, List.nil_append, decodeBytes, wordOfLanes_byteLane]
  cases decodeWord w <;> rfl

end Sys2Proof
end

