-- ==== Sys2Proof/Laws/PerInstr.lean ====
section
/-! SUPPORT. Statements made per instruction, one lemma per constructor of `Instr`. -/

/-- The opcode field of a command's word is the command's opcode in the opcode map (R65, R68). -/
def Sys2Proof.Laws.OpcodeField.Statement (i : Sys2Proof.Instr) : Prop :=
  Sys2Proof.fieldOp (Sys2Proof.encode i) = Sys2Proof.opcode i

namespace Sys2Proof.Laws.OpcodeField

theorem init : Statement .init := fieldOp_formatC _ _ _ _
theorem setperiod : Statement .setperiod := fieldOp_formatC _ _ _ _
theorem start : Statement .start := fieldOp_formatC _ _ _ _
theorem stop : Statement .stop := fieldOp_formatC _ _ _ _
theorem restart : Statement .restart := fieldOp_formatC _ _ _ _
theorem resume : Statement .resume := fieldOp_formatC _ _ _ _
theorem pwm (p : Bool) (ch duty : Nat) : Statement (.pwm p ch duty) := fieldOp_formatC _ _ _ _
theorem setduty (ch duty : Nat) : Statement (.setduty ch duty) := fieldOp_formatC _ _ _ _
theorem dispwm (ch : Nat) : Statement (.dispwm ch) := fieldOp_formatC _ _ _ _
theorem attach (p : Bool) : Statement (.attach p) := fieldOp_formatC _ _ _ _
theorem detach : Statement .detach := fieldOp_formatC _ _ _ _

end Sys2Proof.Laws.OpcodeField
end

