-- ==== Sys2Proof/Laws/Step.lean ====
section
/-! SUPPORT. What a command's commit and a step can do, said once: later proofs split on these cases instead of unfolding
`step`. -/

namespace Sys2Proof.Machine

/-! Commands -/

/-- The channel operand names a channel exactly for 0 and 1 (R67). -/
theorem channelOf_eq_none {ch : Nat} : channelOf ch = none ↔ 2 ≤ ch := by
  rcases ch with _ | _ | ch <;> simp [channelOf]

theorem exec_pwm_none {ch : Nat} (h : channelOf ch = none) (p : Bool) (duty : Nat) (s : State) :
    exec (.pwm p ch duty) s = .next s := by
  simp only [exec, execPwm, h]

theorem exec_pwm_some {ch : Nat} {x : ChannelId} (h : channelOf ch = some x) (p : Bool) (duty : Nat) (s : State) :
    exec (.pwm p ch duty) s = .next ((s.applyPeriodIf p).setChan x
      { en := true, cmp := conv s.cfg.fullScale (s.applyPeriodIf p).reload duty, pindir := true }) := by
  simp only [exec, execPwm, h]
  cases x <;> simp [State.setCompare]

theorem exec_setduty_none {ch : Nat} (h : channelOf ch = none) (duty : Nat) (s : State) :
    exec (.setduty ch duty) s = .next s := by
  simp only [exec, execSetduty, h]

theorem exec_setduty_some {ch : Nat} {x : ChannelId} (h : channelOf ch = some x) (duty : Nat) (s : State) :
    exec (.setduty ch duty) s = .next (s.setCompare x duty) := by
  simp only [exec, execSetduty, h]

theorem exec_dispwm_none {ch : Nat} (h : channelOf ch = none) (s : State) : exec (.dispwm ch) s = .next s := by
  simp only [exec, execDispwm, h]

theorem exec_dispwm_some {ch : Nat} {x : ChannelId} (h : channelOf ch = some x) (s : State) :
    exec (.dispwm ch) s = .next (s.setChan x { s.chan x with en := false }) := by
  simp only [exec, execDispwm, h]

theorem exec_resume_stopped {s : State} (h : s.run = .stopped) :
    exec .resume s = .next (s.setRun .counting).loadPhaseOfPsel := by
  simp only [exec, execResume, h]

theorem exec_resume_counting {s : State} (h : s.run = .counting) : exec .resume s = .next s := by
  simp only [exec, execResume, h]

/-- What a command's commit makes of a state: the inversion of `exec`, one case per form. -/
inductive Executed (s : State) : Instr → State → Prop where
  | init : Executed s .init
      (((s.setClock s.requestedConfig.1 s.requestedConfig.2).setRun .stopped).drawCounter)
  | setperiod : Executed s .setperiod s.applyPeriod
  | start : Executed s .start s.startCounting
  | stop : Executed s .stop (s.setRun .stopped)
  | restart : Executed s .restart s.startCounting
  | resume (h : s.run = .stopped) : Executed s .resume (s.setRun .counting).loadPhaseOfPsel
  | resumeNop (h : s.run = .counting) : Executed s .resume s
  | pwm (p : Bool) (ch duty : Nat) (x : ChannelId) (h : channelOf ch = some x) :
      Executed s (.pwm p ch duty) ((s.applyPeriodIf p).setChan x
        { en := true, cmp := conv s.cfg.fullScale (s.applyPeriodIf p).reload duty, pindir := true })
  | pwmNop (p : Bool) (ch duty : Nat) (h : channelOf ch = none) : Executed s (.pwm p ch duty) s
  | setduty (ch duty : Nat) (x : ChannelId) (h : channelOf ch = some x) :
      Executed s (.setduty ch duty) (s.setChan x { s.chan x with cmp := conv s.cfg.fullScale s.reload duty })
  | setdutyNop (ch duty : Nat) (h : channelOf ch = none) : Executed s (.setduty ch duty) s
  | dispwm (ch : Nat) (x : ChannelId) (h : channelOf ch = some x) :
      Executed s (.dispwm ch) (s.setChan x { s.chan x with en := false })
  | dispwmNop (ch : Nat) (h : channelOf ch = none) : Executed s (.dispwm ch) s
  | attach (p : Bool) : Executed s (.attach p) (((s.applyPeriodIf p).storeCallback s.argHandle).setOvie true)
  | detach : Executed s .detach (s.setOvie false)

/-- `exec` does one of the things `Executed` lists. -/
theorem exec_executed (i : Instr) (s : State) : ∃ t, exec i s = .next t ∧ Executed s i t := by
  cases i with
  | init => exact ⟨_, rfl, .init⟩
  | setperiod => exact ⟨_, rfl, .setperiod⟩
  | start => exact ⟨_, rfl, .start⟩
  | stop => exact ⟨_, rfl, .stop⟩
  | restart => exact ⟨_, rfl, .restart⟩
  | resume =>
    cases h : s.run with
    | stopped => exact ⟨_, exec_resume_stopped h, .resume h⟩
    | counting => exact ⟨_, exec_resume_counting h, .resumeNop h⟩
  | pwm p ch duty =>
    cases h : channelOf ch with
    | none => exact ⟨_, exec_pwm_none h p duty s, .pwmNop p ch duty h⟩
    | some x => exact ⟨_, exec_pwm_some h p duty s, .pwm p ch duty x h⟩
  | setduty ch duty =>
    cases h : channelOf ch with
    | none => exact ⟨_, exec_setduty_none h duty s, .setdutyNop ch duty h⟩
    | some x => exact ⟨_, exec_setduty_some h duty s, .setduty ch duty x h⟩
  | dispwm ch =>
    cases h : channelOf ch with
    | none => exact ⟨_, exec_dispwm_none h s, .dispwmNop ch h⟩
    | some x => exact ⟨_, exec_dispwm_some h s, .dispwm ch x h⟩
  | attach p => exact ⟨_, rfl, .attach p⟩
  | detach => exact ⟨_, rfl, .detach⟩

/-- Every command completes in every state (R107). -/
theorem exec_next (i : Instr) (s : State) : ∃ t, exec i s = .next t :=
  (exec_executed i s).elim fun t h => ⟨t, h.1⟩

/-- The same, read from an `exec` that answers a next state. -/
theorem executed_of_exec {i : Instr} {s t : State} (h : exec i s = .next t) : Executed s i t := by
  obtain ⟨u, hu, he⟩ := exec_executed i s
  rw [hu] at h
  injection h with h
  exact h ▸ he

/-- No command touches the parameters, the operand registers, the host's list or the read's word (R33). -/
theorem exec_frame {i : Instr} {s t : State} (h : exec i s = .next t) :
    t.cfg = s.cfg ∧ t.argPeriod = s.argPeriod ∧ t.argHandle = s.argHandle ∧ t.inputs = s.inputs ∧ t.rdata = s.rdata := by
  cases executed_of_exec h <;> simp

/-! The host access of a cycle -/

/-- What the commit of a cycle without reset can be, from the state `s` the cycle finds to the state `u` its clock finds
(R53, R54). -/
inductive Committed (c : Cycle) (s u : State) : Prop where
  /-- No access, or one with no effect. -/
  | none (h : u = s.setRdata .none)
  /-- A read, with the block's answer. -/
  | read (v : Option Word) (h : u = s.setRdata v)
  /-- A command. -/
  | command (i : Instr) (hc : c.command? = some i) (h : exec i (s.setRdata .none) = .next u)
  /-- A write of `ARG_PERIOD`. -/
  | argPeriod (v : Word) (hc : c = wr .argPeriod v) (h : u = (s.setRdata .none).setArgPeriod v)
  /-- A write of `ARG_HANDLE`. -/
  | argHandle (v : Word) (hc : c = wr .argHandle v) (h : u = (s.setRdata .none).setArgHandle v)
  /-- An acknowledge. -/
  | ack (v : Word) (hc : c = wr .irqAck v) (hv : v.getLsbD 0 = true) (h : u = (s.setRdata .none).setOvf false)

/-- An access: its effect on the block, then the clock (R59). -/
theorem runCycle_access {a : Access} {s t : State} (h : accessBlock a s = .next t) :
    runCycle (.access a) s = .next t.clockCycle := by
  simp only [runCycle, h]

/-- An admitted read is answered with the register's word (R54). -/
theorem answer_admitted {a : Access} (h : a.admitted = true) (s : State) : s.answer a = some (s.regRead a.off.toNat) := by
  rw [State.answer, if_pos (Bool.and_eq_true_iff.mp h).1, if_pos h]

/-- A non-admitted read inside the window is answered with 0 (R51). -/
theorem answer_not_admitted {a : Access} (hw : a.inWindow = true) (h : a.admitted = false) (s : State) :
    s.answer a = some 0 := by
  rw [State.answer, if_pos hw, h]; rfl

/-- An access outside the window leaves the block to its clock alone, and the block answers nothing (R45, R110). -/
theorem accessBlock_outside {a : Access} (h : a.inWindow = false) (s : State) :
    accessBlock a s = .next (s.setRdata none) := by
  cases a with
  | read off size => simp only [accessBlock, State.answer, h]; rfl
  | write off size v => simp only [accessBlock, Access.admitted, h]; rfl

/-- A `CMD` write of a word that decodes: the command, then the clock (R37, R59, R69). -/
theorem runCycle_cmdWrite {w : Word} {i : Instr} {s t : State} (hd : decodeWord w = .ok i)
    (h : exec i (s.setRdata none) = .next t) : runCycle (cmdWrite w) s = .next t.clockCycle := by
  have hx : accessBlock (.write 0 .word w) s = executeCommand w (s.setRdata none) := rfl
  refine runCycle_access (a := .write 0 .word w) ?_
  rw [hx, executeCommand, hd]
  exact h

/-- Every admitted write completes, and says how (R53). -/
theorem busWrite_next (off : Nat) (v : Word) (s : State) :
    ∃ u, Committed (.access (.write off .word v)) s u ∧ busWrite off v (s.setRdata none) = .next u := by
  unfold busWrite
  split
  · unfold executeCommand
    cases hd : decodeWord v with
    | error e => exact ⟨_, .none rfl, rfl⟩
    | ok i =>
      obtain ⟨t, ht⟩ := exec_next i (s.setRdata none)
      exact ⟨t, .command i (by simp [Cycle.command?, hd]) ht, ht⟩
  · exact ⟨_, .argPeriod v rfl rfl, rfl⟩
  · exact ⟨_, .argHandle v rfl rfl, rfl⟩
  · by_cases hv : v.getLsbD 0 = true
    · exact ⟨_, .ack v rfl hv rfl, by simp only [hv, ite_true]⟩
    · exact ⟨_, .none rfl, by simp only [hv]; rfl⟩
  · exact ⟨_, .none rfl, rfl⟩

/-- Every cycle completes, and says how (R51, R53, R54, R129). -/
theorem runCycle_next (c : Cycle) (s : State) :
    (∃ a, c = .rst a ∧ runCycle c s = .next (resetCycle a s)) ∨
      (c.isRst = false ∧ ∃ u, Committed c s u ∧ runCycle c s = .next u.clockCycle) := by
  cases c with
  | idle => exact .inr ⟨rfl, _, .none rfl, rfl⟩
  | rst a => exact .inl ⟨a, rfl, rfl⟩
  | access a =>
    refine .inr ⟨rfl, ?_⟩
    cases a with
    | read off size => exact ⟨_, .read _ rfl, rfl⟩
    | write off size v =>
      by_cases ha : Access.admitted (.write off size v) = true
      · have hw := (Bool.and_eq_true_iff.mp ha).1
        obtain ⟨h0, _⟩ : 0 ≤ off ∧ off < 64 := of_decide_eq_true hw
        obtain ⟨rfl, _⟩ : size = .word ∧ off % 4 = 0 := of_decide_eq_true (Bool.and_eq_true_iff.mp ha).2
        obtain ⟨n, rfl⟩ := Int.eq_ofNat_of_zero_le h0
        obtain ⟨u, hu, hb⟩ := busWrite_next n v s
        have hx : accessBlock (.write (n : Int) .word v) s = .next u := by
          rw [accessBlock, if_pos ha, Int.toNat_natCast, hb]
        exact ⟨u, hu, runCycle_access hx⟩
      · exact ⟨_, .none rfl, runCycle_access (by rw [accessBlock, if_neg ha])⟩

/-! Steps -/

/-- A step runs the next clock cycle lined up, an idle one where none is (R57). -/
theorem step_eq (s : State) : step s = runCycle s.nextCycle s.popped := by
  unfold step State.nextCycle State.popped
  cases h : s.inputs with
  | nil =>
    have : s.setInputs [] = s := by rw [← h]; rfl
    simp only [List.headD_nil, List.tail_nil, this]
  | cons c cs => rfl

/-- A step with a clock cycle lined up runs it. -/
theorem step_cons {s : State} {c : Cycle} {rest : List Cycle} (h : s.inputs = c :: rest) :
    step s = runCycle c (s.setInputs rest) := by
  unfold step; rw [h]

/-- A step with none lined up runs an idle cycle: nothing but the clock (R73, R110). -/
theorem step_idle {s : State} (h : s.inputs = []) : step s = .next (s.setRdata none).clockCycle := by
  unfold step; rw [h]; rfl

@[simp] theorem popped_inputs (s : State) : s.popped.inputs = s.inputs.tail := rfl

/-! Runs -/

@[simp] theorem run_zero (s : State) : Host.Core.run Sys2Proof.core 0 s = .next s := rfl

/-- A run that begins with a step that answers a next state goes on from there. -/
theorem run_succ {s t : State} (k : Nat) (h : step s = .next t) :
    Host.Core.run Sys2Proof.core (k + 1) s = Host.Core.run Sys2Proof.core k t := by
  have h' : Sys2Proof.core.step s = .next t := h
  simp only [Host.Core.run, h']

/-- A run that answers a next state: its first step did, and the rest of it too. -/
theorem run_succ_next {s t : State} {k : Nat} (h : Host.Core.run Sys2Proof.core (k + 1) s = .next t) :
    ∃ u : State, step s = .next u ∧ Host.Core.run Sys2Proof.core k u = .next t := by
  cases hs : step s with
  | next u => exact ⟨u, rfl, by rw [run_succ k hs] at h; exact h⟩
  | fault r => exact r.casesOn
  | refused r =>
    have h' : Sys2Proof.core.step s = .refused r := hs
    simp only [Host.Core.run, h'] at h
    exact absurd h (by simp)

/-- Two runs one after the other are one run. -/
theorem run_add {s t : State} {j : Nat} (k : Nat) (h : Host.Core.run Sys2Proof.core j s = .next t) :
    Host.Core.run Sys2Proof.core (j + k) s = Host.Core.run Sys2Proof.core k t := by
  induction j generalizing s with
  | zero =>
    rw [run_zero] at h
    injection h with h
    subst h
    rw [Nat.zero_add]
  | succ j ih =>
    obtain ⟨u, hu, hr⟩ := run_succ_next h
    rw [Nat.succ_add, run_succ _ hu]
    exact ih hr

/-- An invariant of the step is an invariant of every run: the induction, once. -/
theorem run_invariant {P : State → Prop} (hstep : ∀ s t, P s → step s = .next t → P t) {s t : State} (k : Nat) (hs : P s)
    (h : Host.Core.run Sys2Proof.core k s = .next t) : P t := by
  induction k generalizing s with
  | zero =>
    rw [run_zero] at h
    injection h with h
    exact h ▸ hs
  | succ k ih =>
    obtain ⟨u, hu, hr⟩ := run_succ_next h
    exact ih (hstep s u hs hu) hr

/-! Every step -/

/-- Every step completes: reset, or commit then clock. -/
theorem step_cases (s : State) :
    (∃ a, s.nextCycle = .rst a ∧ step s = .next (resetCycle a s.popped)) ∨
    (s.nextCycle.isRst = false ∧ ∃ u, Committed s.nextCycle s.popped u ∧ step s = .next u.clockCycle) := by
  rw [step_eq]
  exact runCycle_next _ _

/-- The same, read from a step that answers a next state. -/
theorem step_next_cases {s t : State} (h : step s = .next t) :
    (∃ a, s.nextCycle = .rst a ∧ t = resetCycle a s.popped) ∨
    (s.nextCycle.isRst = false ∧ ∃ u, Committed s.nextCycle s.popped u ∧ t = u.clockCycle) := by
  obtain ⟨a, ha, e⟩ | ⟨hr, u, hu, e⟩ := step_cases s
  · rw [e] at h; exact .inl ⟨a, ha, by injection h with h; exact h.symm⟩
  · rw [e] at h; exact .inr ⟨hr, u, hu, by injection h with h; exact h.symm⟩

end Sys2Proof.Machine
end

