-- ==== Sys2Proof/Tests/Slice0.lean ====
section
/-! SUPPORT. Tests: well-formedness, decoding, one step of each command, and a witness for the hypotheses of every statement.
Every expected value is the spec's own (the tables of 95_test_vectors.md, by their ids, or a rule's example) or worked out by
hand from the rule named; nothing here was copied from a run of the model. -/

namespace Sys2Proof.Tests

open Sys2Proof.Machine

/-! Helpers -/

/-- A small state: 16 MHz, `FULL_SCALE` 1024, Stopped at ÷1 with reload 8000, all flags clear. -/
def base : State where
  cfg := { clkHz := 16000000, fullScale := .k1024, blockBase := 64, pinA := 9, pinB := 10 }
  psel := .div1
  reload := 8000
  run := .stopped
  cnt := 0
  dir := .up
  phase := 1
  chA := { en := false, cmp := 0, pindir := false }
  chB := { en := false, cmp := 0, pindir := false }
  ovf := false
  ovie := false
  cbv := false
  handle := 0
  argPeriod := 0
  argHandle := 0
  phaseLoaded := false
  inputs := []
  rdata := none
  draws := 0

/-- A channel that is on, at half of reload 8000. -/
def onA : Channel := { en := true, cmp := 4000, pindir := true }

/-- Counting at ÷1, one tick before an overflow event. -/
def brink : State := { base with run := .counting, cnt := 1, dir := .down }

/-- Counting at ÷8 with two clock cycles to the next tick. -/
def slow : State := { base with run := .counting, psel := .div8, reload := 3, phase := 2 }

/-- The state with these clock cycles lined up. -/
def feed (s : State) (cs : List Cycle) : State := { s with inputs := cs }

/-- The outcome is a next state and it passes the check. -/
def ends (o : Host.Outcome State Fault Refusal) (p : State → Bool) : Bool :=
  match o with
  | .next t => p t
  | .fault _ => false
  | .refused _ => false

/-- A passed check is a next state that meets it. -/
theorem meets {o : Host.Outcome State Fault Refusal} {p : State → Bool} (h : ends o p = true) :
    ∃ t, o = .next t ∧ p t = true := by
  cases o with
  | next t => exact ⟨t, rfl, h⟩
  | fault r => simp [ends] at h
  | refused r => simp [ends] at h

/-! WellFormed: an ill-formed term for each check (R65, R72) -/

theorem test_ill_formed_pwm_channel : (Instr.pwm false 4 0).wellFormed = false := by decide
theorem test_ill_formed_pwm_duty : (Instr.pwm true 0 2048).wellFormed = false := by decide
theorem test_ill_formed_setduty_channel : (Instr.setduty 4 0).wellFormed = false := by decide
theorem test_ill_formed_setduty_duty : (Instr.setduty 0 2048).wellFormed = false := by decide
theorem test_ill_formed_dispwm_channel : (Instr.dispwm 4).wellFormed = false := by decide
/-- An unrecognized channel is well-formed, and so is every duty the field holds (R67, R72). -/
theorem test_well_formed_edges : (Instr.pwm true 3 2047).wellFormed = true ∧ (Instr.setduty 3 2047).wellFormed = true ∧
    (Instr.dispwm 3).wellFormed = true := by decide

/-! Decoding: every command's word, written out bit by bit from format `C`: `[31:19]` ignored, `DUTY`, `[7]` ignored, `CH`,
`P`, `OP` (R65, R68) -/

theorem test_decode_init : decodeWord 0b0000000000000_00000000000_0_00_0_0001 = .ok .init := by decide
theorem test_decode_setperiod : decodeWord 0b0000000000000_00000000000_0_00_0_0010 = .ok .setperiod := by decide
theorem test_decode_start : decodeWord 0b0000000000000_00000000000_0_00_0_0011 = .ok .start := by decide
theorem test_decode_stop : decodeWord 0b0000000000000_00000000000_0_00_0_0100 = .ok .stop := by decide
theorem test_decode_restart : decodeWord 0b0000000000000_00000000000_0_00_0_0101 = .ok .restart := by decide
theorem test_decode_resume : decodeWord 0b0000000000000_00000000000_0_00_0_0110 = .ok .resume := by decide
/-- `PWM A, 512`, `PWM.P A, 512`, `PWM B, 256` (R75), and every field full. -/
theorem test_decode_pwm :
    decodeWord 0b0000000000000_01000000000_0_00_0_0111 = .ok (.pwm false 0 512) ∧
    decodeWord 0b0000000000000_01000000000_0_00_1_0111 = .ok (.pwm true 0 512) ∧
    decodeWord 0b0000000000000_00100000000_0_01_0_0111 = .ok (.pwm false 1 256) ∧
    decodeWord 0b0000000000000_11111111111_0_11_1_0111 = .ok (.pwm true 3 2047) := by decide
/-- `SETDUTY B, 1023`, `SETDUTY A, 1024` (R75), and `P` ignored (PW9). -/
theorem test_decode_setduty :
    decodeWord 0b0000000000000_01111111111_0_01_0_1000 = .ok (.setduty 1 1023) ∧
    decodeWord 0b0000000000000_10000000000_0_00_0_1000 = .ok (.setduty 0 1024) ∧
    decodeWord 0b0000000000000_01000000000_0_00_1_1000 = .ok (.setduty 0 512) := by decide
/-- `DISPWM B` (R75) and `DISPWM 3` (PW12). -/
theorem test_decode_dispwm :
    decodeWord 0b0000000000000_00000000000_0_01_0_1001 = .ok (.dispwm 1) ∧
    decodeWord 0b0000000000000_00000000000_0_11_0_1001 = .ok (.dispwm 3) := by decide
/-- `ATTACH` and `ATTACH.P` (R72). -/
theorem test_decode_attach :
    decodeWord 0b0000000000000_00000000000_0_00_0_1010 = .ok (.attach false) ∧
    decodeWord 0b0000000000000_00000000000_0_00_1_1010 = .ok (.attach true) := by decide
theorem test_decode_detach : decodeWord 0b0000000000000_00000000000_0_00_0_1011 = .ok .detach := by decide
/-- SP9, EN3, EN6: ignored bits set. -/
theorem test_decode_ignores_bits : decodeWord 0xFFFFFFE1 = .ok .init ∧ decodeWord 0xFFF80083 = .ok .start ∧
    decodeWord 0x00080008 = .ok (.setduty 0 0) := by decide
/-- EN1, EN2, EN4: reserved opcodes are rejected by name. -/
theorem test_decode_rejects_reserved :
    decodeWord 0x00000000 = .error (.reserved 0x0) ∧ decodeWord 0x0000000C = .error (.reserved 0xC) ∧
    decodeWord 0x0000000D = .error (.reserved 0xD) ∧ decodeWord 0x0000000E = .error (.reserved 0xE) ∧
    decodeWord 0x0000000F = .error (.reserved 0xF) ∧ decodeWord 0x00000080 = .error (.reserved 0x0) := by decide
/-- R52, R64: the lowest byte comes first; three bytes are no command. -/
theorem test_decode_bytes : decodeBytes [0x28, 0xFF, 0x03, 0x00, 0x55] = .ok (.setduty 1 1023, [0x55]) ∧
    decodeBytes [0x28, 0xFF, 0x03] = .error (.truncated 3) ∧ decodeBytes [] = .error (.truncated 0) := by decide
/-- The table's own matches decode to its rows, and a reserved word to none. -/
theorem test_decode_table_word : decodeTableWord 32 0x00000001 = some .init ∧
    decodeTableWord 32 0x0003FF28 = some (.setduty 1 1023) ∧ decodeTableWord 32 0x0000001A = some (.attach true) ∧
    decodeTableWord 8 0x3FF27 = some (.pwm false 1 0) ∧ decodeTableWord 32 0x0000000C = none := by decide
/-- PW1, PW6, IN2, EN5: the encoder. -/
theorem test_encode : encode (.pwm true 0 512) = 0x00020017 ∧ encode (.setduty 1 1023) = 0x0003FF28 ∧
    encode (.attach true) = 0x0000001A ∧ encode (.setduty 0 1024) = 0x00040008 ∧
    encodeBytes (.dispwm 1) = [0x29, 0, 0, 0] := by decide

/-! The calculator, the converter, the tick (95_test_vectors.md, sections 2.1 to 2.3) -/

/-- PC1 to PC5, PC7 to PC10. -/
theorem test_period_config_small : periodConfig 16000000 0 = (.div1, 0) ∧ periodConfig 16000000 1 = (.div1, 8) ∧
    periodConfig 16000000 1000 = (.div1, 8000) ∧ periodConfig 16000000 8191 = (.div1, 65528) ∧
    periodConfig 16000000 8192 = (.div8, 8192) ∧ periodConfig 16000000 65535 = (.div8, 65535) ∧
    periodConfig 16000000 65536 = (.div64, 8192) ∧ periodConfig 16000000 524287 = (.div64, 65535) ∧
    periodConfig 16000000 524288 = (.div256, 16384) := by decide
/-- PC11 to PC15, PC17. -/
theorem test_period_config_large : periodConfig 16000000 1000000 = (.div256, 31250) ∧
    periodConfig 16000000 2097151 = (.div256, 65535) ∧ periodConfig 16000000 2097152 = (.div1024, 16384) ∧
    periodConfig 16000000 8388607 = (.div1024, 65535) ∧ periodConfig 16000000 8388608 = (.div1024, 65535) ∧
    periodConfig 16000000 4294967295 = (.div1024, 65535) := by decide
/-- PC18 to PC27. -/
theorem test_period_config_other_clocks : periodConfig 1000000 1 = (.div1, 0) ∧ periodConfig 1000000 3 = (.div1, 1) ∧
    periodConfig 1000000 131071 = (.div1, 65535) ∧ periodConfig 1000000 131072 = (.div8, 8192) ∧
    periodConfig 20000000 6553 = (.div1, 65530) ∧ periodConfig 20000000 6554 = (.div8, 8192) ∧
    periodConfig 7372800 1000 = (.div1, 3686) ∧ periodConfig 1 4294967295 = (.div1, 2147) ∧
    periodConfig 4294967295 4294967295 = (.div1024, 65535) ∧ periodConfig 4294967295 1 = (.div1, 2147) := by decide
/-- CV1 to CV6, CV8 to CV10, CV12 to CV15. -/
theorem test_conv_1024 : conv .k1024 8000 0 = 0 ∧ conv .k1024 8000 512 = 4000 ∧ conv .k1024 8000 1024 = 8000 ∧
    conv .k1024 8000 2047 = 8000 ∧ conv .k1024 1000 512 = 500 ∧ conv .k1024 3 512 = 2 ∧ conv .k1024 1 511 = 0 ∧
    conv .k1024 1 512 = 1 ∧ conv .k1024 65535 1023 = 65471 ∧ conv .k1024 65535 1024 = 65535 ∧
    conv .k1024 20000 1023 = 19980 ∧ conv .k1024 20000 1 = 20 ∧ conv .k1024 100 5 = 0 ∧ conv .k1024 100 6 = 1 := by decide
/-- CW1 to CW7. -/
theorem test_conv_1023 : conv .k1023 8000 512 = 4004 ∧ conv .k1023 8000 1023 = 8000 ∧ conv .k1023 8000 1024 = 8000 ∧
    conv .k1023 1000 512 = 500 ∧ conv .k1023 65535 1023 = 65535 ∧ conv .k1023 20000 512 = 10010 ∧
    conv .k1023 20000 1023 = 20000 := by decide

/-- The counter after a tick from a reload value, a count and a direction, and whether it raised an overflow event. -/
def ticked (r c : Half) (d : Dir) : Half × Dir × Bool :=
  let t := ({ base with reload := r, cnt := c, dir := d } : State).tick
  (t.cnt, t.dir, t.ovf)

/-- CT1, CT2. -/
theorem test_tick_short_cycles : ticked 0 0 .up = (0, .up, true) ∧ ticked 0 7 .down = (0, .up, true) ∧
    ticked 1 0 .up = (1, .up, false) ∧ ticked 1 1 .up = (0, .up, true) := by decide
/-- CT4, CT6, CT7: the six ticks of a cycle of reload 3, and a count above the reload value. -/
theorem test_tick_cycle : ticked 3 0 .up = (1, .up, false) ∧ ticked 3 2 .up = (3, .up, false) ∧
    ticked 3 3 .up = (2, .down, false) ∧ ticked 3 2 .down = (1, .down, false) ∧ ticked 3 1 .down = (0, .up, true) ∧
    ticked 3 10 .up = (9, .down, false) ∧ ticked 3 10 .down = (9, .down, false) := by decide
/-- CT8: a second overflow event merges. -/
theorem test_tick_merges : ({ brink with ovf := true } : State).tick.ovf = true := by decide

/-! The commands, one each (95_test_vectors.md, sections 2.5 to 2.8) -/

/-- SP1. -/
theorem test_init_configures : ends (exec .init { base with psel := .none, argPeriod := 1000 }) (fun t =>
    decide (t.psel = .div1 ∧ t.reload = 8000 ∧ t.run = .stopped ∧ t.statusWord = 0x200)) = true := by decide
/-- SP2. -/
theorem test_init_keeps_the_interrupt : ends (exec .init
    { base with run := .counting, cnt := 100, ovf := true, ovie := true, cbv := true, argPeriod := 1000 }) (fun t => decide (t.run = .stopped ∧ t.ovf = true ∧ t.ovie = true ∧ t.cbv = true ∧
      t.irq = true)) = true := by decide
/-- SP3, SP8. -/
theorem test_setperiod_stopped : ends (exec .setperiod { base with argPeriod := 20000, chA := onA }) (fun t => decide (t.psel = .div8 ∧ t.reload = 20000 ∧ t.run = .stopped ∧ t.chA.cmp = 4000)) = true := by
  decide
/-- SP5: no new phase where the selector stays. -/
theorem test_setperiod_counting : ends (exec .setperiod { base with run := .counting, cnt := 5000, argPeriod := 200 })
    (fun t => decide (t = { base with run := .counting, cnt := 5000, argPeriod := 200, reload := 1600 } ∧
      t.tick.cnt = 4999 ∧ t.tick.dir = .down)) = true := by decide
/-- RC1, PS1: at ÷1 the phase drawn is 1. -/
theorem test_start_from_stopped : ends (exec .start { base with cnt := 1234, dir := .down, ovf := true }) (fun t =>
    decide (t.run = .counting ∧ t.cnt = 0 ∧ t.dir = .up ∧ t.ovf = false ∧ t.phase = 1)) = true := by decide
/-- RC4: with no period configured the counter never moves. -/
theorem test_start_unconfigured : ends (exec .start { base with psel := .none }) (fun t =>
    decide (t.statusWord = 1 ∧ t.cnt = 0 ∧ t.clockCycle = t)) = true := by decide
/-- RC5. -/
theorem test_stop : ends (exec .stop { base with run := .counting, cnt := 4321, dir := .down, ovf := true }) (fun t =>
    decide (t = { base with cnt := 4321, dir := .down, ovf := true })) = true := by decide
/-- RC7, RC2. -/
theorem test_restart : ends (exec .restart { base with run := .counting, cnt := 3000, ovf := true }) (fun t =>
    decide (t.run = .counting ∧ t.cnt = 0 ∧ t.dir = .up ∧ t.ovf = false)) = true := by decide
/-- RC8, RC10. -/
theorem test_resume_from_stopped : ends (exec .resume { base with cnt := 4321, dir := .down, ovf := true }) (fun t =>
    decide (t.run = .counting ∧ t.cnt = 4321 ∧ t.dir = .down ∧ t.ovf = true ∧ t.phase = 1)) = true := by decide
/-- RC9. -/
theorem test_resume_from_counting : ends (exec .resume slow) (fun t => decide (t = slow)) = true := by decide
/-- PW1, PW13: the period first, the other channel stale. -/
theorem test_pwm_with_period : ends (exec (.pwm true 1 512) { base with argPeriod := 20000, chA := onA }) (fun t => decide (t.psel = .div8 ∧ t.reload = 20000 ∧ t.run = .stopped ∧
      t.chB = { en := true, cmp := 10000, pindir := true } ∧ t.chA.cmp = 4000)) = true := by decide
/-- PW5, PW3: the clamped duty; an unrecognized channel. -/
theorem test_pwm_without_period : ends (exec (.pwm false 0 2047) { base with argPeriod := 20000 }) (fun t =>
    decide (t = { base with argPeriod := 20000, chA := { en := true, cmp := 8000, pindir := true } })) = true ∧
    ends (exec (.pwm true 2 512) { base with argPeriod := 20000 }) (fun t => decide (t = { base with argPeriod := 20000 }))
      = true := by decide
/-- PW6. -/
theorem test_setduty_disabled : ends (exec (.setduty 1 1023) { base with reload := 20000 }) (fun t =>
    decide (t = { base with reload := 20000, chB := { en := false, cmp := 19980, pindir := false } })) = true := by decide
/-- PW7, PW8. -/
theorem test_setduty_full_scale : ends (exec (.setduty 0 1024) { base with chA := onA })
    (fun t => decide (t.chA = { en := true, cmp := 8000, pindir := true })) = true ∧
    ends (exec (.setduty 2 512) base) (fun t => decide (t = base)) = true := by decide
/-- PW10. -/
theorem test_dispwm : ends (exec (.dispwm 0) { base with chA := onA })
    (fun t => decide (t.chA = { en := false, cmp := 4000, pindir := true } ∧ t.chB = base.chB)) = true := by decide
/-- PW12. -/
theorem test_dispwm_unrecognized : ends (exec (.dispwm 3) brink) (fun t => decide (t = brink)) = true := by decide
/-- IN1, IN2. -/
theorem test_attach : ends (exec (.attach false) { base with psel := .none, argHandle := 0x1234 }) (fun t =>
    decide (t.handle = 0x1234 ∧ t.statusWord = 0x0C ∧ t.irq = false)) = true ∧
    ends (exec (.attach true) { base with argHandle := 0x1234, argPeriod := 100 }) (fun t =>
      decide (t.handle = 0x1234 ∧ t.psel = .div1 ∧ t.reload = 800)) = true := by decide
/-- IN3, IN6. -/
theorem test_attach_stale_overflow : ends (exec (.attach false) { base with ovf := true, handle := 7 }) (fun t =>
    decide (t.handle = 0 ∧ t.cbv = true ∧ t.ovf = true ∧ t.irq = true)) = true := by decide
/-- IN4. -/
theorem test_detach : ends (exec .detach { base with ovf := true, ovie := true, cbv := true, handle := 0x1234 }) (fun t =>
    decide (t.ovie = false ∧ t.cbv = true ∧ t.handle = 0x1234 ∧ t.ovf = true ∧ t.irq = false)) = true := by decide

/-! Steps: bus accesses, the tick, reset -/

/-- IN7, IN8. -/
theorem test_acknowledge : ends (step (feed { base with ovf := true } [wr .irqAck 1])) (fun t => decide (t.ovf = false)) = true ∧
    ends (step (feed { base with ovf := true } [wr .irqAck 0xFFFFFFFE])) (fun t => decide (t.ovf = true)) = true := by decide
/-- CT9, CT10. -/
theorem test_access_before_tick : ends (step (feed { brink with ovf := true } [wr .irqAck 1])) (fun t => decide (t.ovf = true)) = true ∧
    ends (step (feed { brink with ovie := true, cbv := true } [wrCmd .detach])) (fun t =>
      decide (t.ovf = true ∧ t.irq = false ∧ t.cnt = 0)) = true := by decide
/-- BU1, BU2, BU3, BU5 and P1 step 3: reads. -/
theorem test_reads : ends (step (feed base [rd .cmd])) (fun t => decide (t.rdata = some 0)) = true ∧
    ends (step (feed base [rd .irqAck])) (fun t => decide (t.rdata = some 0)) = true ∧
    ends (step (feed base [.access (.read 0x28 .word)])) (fun t => decide (t.rdata = some 0)) = true ∧
    ends (step (feed { base with argPeriod := 0xDEADBEEF } [rd .argPeriod])) (fun t => decide (t.rdata = some 0xDEADBEEF)) = true ∧
    ends (step (feed base [rd .config])) (fun t => decide (t.rdata = some 0x01011F40)) = true := by decide
/-- P1 step 9, P2 step 8, P3 step 8: register words. -/
theorem test_register_words :
    ({ base with cnt := 1, dir := .down } : State).counterWord = 0x00010001 ∧
    ({ base with chA := { en := true, cmp := 10000, pindir := true } } : State).statusWord = 0x00000250 ∧
    ({ base with run := .counting, ovf := true, ovie := true, cbv := true } : State).statusWord = 0x0000030F := by decide
/-- BU4, BU6, BU7: a read-only register, a narrow write, a misaligned read. -/
theorem test_inert_accesses : ends (step (feed base [wr .config 0xFFFFFFFF])) (fun t => decide (t = base)) = true ∧
    ends (step (feed base [.access (.write 0 .half 3)])) (fun t => decide (t = base)) = true ∧
    ends (step (feed base [.access (.read 2 .word)])) (fun t => decide (t = { base with rdata := some 0 })) = true := by decide
/-- EN1, EN2: a reserved command. -/
theorem test_reserved_command : ends (step (feed base [cmdWrite 0x0000000C])) (fun t => decide (t = base)) = true ∧
    ends (step (feed base [cmdWrite 0])) (fun t => decide (t = base)) = true := by decide
/-- PS2: at ÷8 with two cycles to go, the second idle cycle holds the tick, and the next one is 8 cycles on. -/
theorem test_prescaler : ends (step slow) (fun t => decide (t = { slow with phase := 1 })) = true ∧
    ends (step { slow with phase := 1 }) (fun t => decide (t = { slow with phase := 8, cnt := 1 })) = true := by decide
/-- R109: a start in cycle `t` with draw 1 has its first tick in cycle `t + 1`. -/
theorem test_start_cycle_has_no_tick : ends (step (feed base [wrCmd .start])) (fun t =>
    decide (t.cnt = 0 ∧ t.phase = 1 ∧ t.phaseLoaded = false ∧ t.clockCycle.cnt = 1)) = true := by decide
/-- R52: lane 1 of the configuration word `0x01011F40`. -/
theorem test_lane : base.laneByte 0x11 = 0x1F := by decide
/-- R115, R117, P2 step 9. -/
theorem test_outputs : ({ base with chA := { en := true, cmp := 10000, pindir := true } } : State).out .A = some true ∧
    ({ base with cnt := 4000, chA := onA } : State).out .A = some false ∧
    base.out .B = none := by decide
/-- R129: reset in the middle of counting, with a read that falls into it. -/
theorem test_reset_cycle : ends (step (feed { brink with ovf := true } [.rst (some (.read 0x0C .word))])) (fun t =>
    decide (t.run = .stopped ∧ t.psel = .none ∧ t.ovf = false ∧ t.rdata = some 0)) = true := by decide
/-- BU9: `STATUS` after reset. -/
theorem test_status_after_reset : State.reset.statusWord = 0 := by decide
/-- R45, R110: an access outside the window does nothing to the block, and its clock runs; R129 where `rst` is asserted. -/
theorem test_outside_the_window :
    ends (step (feed slow [.access (.write 64 .word 3)])) (fun t => decide (t = { slow with phase := 1 })) = true ∧
    ends (step (feed slow [.access (.read (-4) .word)])) (fun t => decide (t = { slow with phase := 1 })) = true ∧
    ends (step (feed brink [.rst (some (.read 64 .word))])) (fun t => decide (t.run = .stopped ∧ t.rdata = none)) = true := by
  decide

/-- Every command completes as the first command after reset. -/
theorem test_first_command_after_reset : ∀ w ∈ ([0x1, 0x2, 0x3, 0x4, 0x5, 0x6, 0x20017, 0x3FF28, 0x29, 0x1A, 0xB] : List Nat),
    ends (step (State.reset.withFetchWord 32 w)) (fun t => decide (t.inputs = [])) = true := by decide

/-! Witnesses: for every statement of Obligations.lean that has hypotheses, states and operands that meet them, each clause
at the ends of its range -/

theorem test_witness_DecodeOfEncodeIsTheCommand : (Instr.pwm true 3 2047).wellFormed = true ∧
    decodeBytes (encodeBytes (.pwm true 3 2047) ++ [0xAB]) = .ok (.pwm true 3 2047, [0xAB]) := by decide

theorem test_witness_DecoderFollowsTheOpcodeMap :
    (1 ≤ ((0xFFFFFFF1 : Word) &&& 0xF).toNat ∧ ((0xFFFFFFF1 : Word) &&& 0xF).toNat ≤ 11) ∧
    (1 ≤ ((0xB : Word) &&& 0xF).toNat ∧ ((0xB : Word) &&& 0xF).toNat ≤ 11) ∧
    ¬ (1 ≤ ((0x10 : Word) &&& 0xF).toNat ∧ ((0x10 : Word) &&& 0xF).toNat ≤ 11) ∧
    ¬ (1 ≤ ((0xC : Word) &&& 0xF).toNat ∧ ((0xC : Word) &&& 0xF).toNat ≤ 11) := by decide

theorem test_witness_AssemblerWordsAreAsListed : (3 ≤ 3 ∧ 2047 ≤ 2047) ∧ encode (.pwm true 3 2047) = 0x0007FF77 ∧
    encode (.pwm false 0 0) = 0x00000007 := by decide

theorem test_witness_ByteLanesAreLittleEndian : (0x3C % 4 = 0 ∧ 3 < 4 ∧ 7 < 8) ∧
    (0x0C % 4 = 0 ∧ 0 < 4 ∧ 0 < 8) ∧ (brink.laneByte 0x0C).getLsbD 0 = true := by decide

theorem test_witness_StepRunsTheDecodedCommand : (feed base [cmdWrite 0x0003FF28]).inputs = cmdWrite 0x0003FF28 :: [] ∧
    decodeWord 0x0003FF28 = .ok (.setduty 1 1023) := by decide

theorem test_witness_ReservedCommandHasNoEffect :
    ((feed slow [cmdWrite 0x10]).inputs = cmdWrite 0x10 :: [] ∧ (fieldOp 0x10).toNat = 0) ∧
    ((feed slow [cmdWrite 0xC]).inputs = cmdWrite 0xC :: [] ∧ 12 ≤ (fieldOp 0xC).toNat) ∧
    ((feed slow [cmdWrite 0xF]).inputs = cmdWrite 0xF :: [] ∧ 12 ≤ (fieldOp 0xF).toNat) := by decide

theorem test_witness_EveryStepAnswersANextState :
    (((-1 : Int) < 0 ∨ (64 : Int) ≤ -1) ∧ (feed base [.access (.write (-1) .byte 1)]).inputs = .access (.write (-1) .byte 1) :: []) ∧
    (((64 : Int) < 0 ∨ (64 : Int) ≤ 64) ∧ (feed base [.access (.read 64 .word)]).inputs = .access (.read 64 .word) :: []) := by
  decide

theorem test_witness_NonAdmittedAccessIsInert :
    (((0 : Int) ≤ 0 ∧ (0 : Int) < 64 ∧ (Size.half ≠ .word ∨ (0 : Int) % 4 ≠ 0)) ∧
      (feed base [.access (.write 0 .half 3)]).inputs = .access (.write 0 .half 3) :: []) ∧
    (((0 : Int) ≤ 63 ∧ (63 : Int) < 64 ∧ (Size.word ≠ .word ∨ (63 : Int) % 4 ≠ 0)) ∧
      (feed base [.access (.read 63 .word)]).inputs = .access (.read 63 .word) :: []) := by decide

theorem test_witness_AdmittedWriteEffects : (1 : Word).getLsbD 0 = true ∧ (0xFFFFFFFE : Word).getLsbD 0 = false ∧
    (∀ off ∈ ([0x0C, 0x20, 0x28, 0x3C] : List Nat),
      off < 64 ∧ off % 4 = 0 ∧ off ≠ 0x00 ∧ off ≠ 0x04 ∧ off ≠ 0x08 ∧ off ≠ 0x24) := by decide

theorem test_witness_AdmittedReadValues : (0 < 64 ∧ 0 % 4 = 0) ∧ (0x3C < 64 ∧ 0x3C % 4 = 0) ∧
    ends (accessBlock (.read 0x3C .word) brink) (fun t => decide (t = { brink with rdata := some 0 })) = true ∧
    brink.regRead 0x1C = 0x00010001 := by decide

theorem test_witness_ResetCycleGivesResetValues :
    (feed brink [.rst (some (.read 0x0C .word))]).inputs = .rst (some (.read 0x0C .word)) :: [] ∧
    ((0 : Int) ≤ 0x0C ∧ (0x0C : Int) < 64) ∧ (feed brink [.rst none]).inputs = .rst none :: [] := by decide

theorem test_witness_AccessGoesBeforeTheTick :
    ((feed brink [wr .irqAck 1]).inputs = wr .irqAck 1 :: [] ∧ (1 : Word).getLsbD 0 = true ∧
      (feed brink [wr .irqAck 1]).ticksNow = true ∧ (feed brink [wr .irqAck 1]).tickOverflows = true) ∧
    ((feed brink [wrCmd .detach]).inputs = wrCmd .detach :: [] ∧ (feed brink [wrCmd .detach]).ticksNow = true ∧
      (feed brink [wrCmd .detach]).tickOverflows = true) ∧
    (feed brink [wrCmd .start]).inputs = wrCmd .start :: [] := by decide

theorem test_witness_ResumeCountsOn : base.run = .stopped ∧ brink.run = .counting := by decide

theorem test_witness_UnrecognizedChannelHasNoEffect : 2 ≤ 2 ∧ 2 ≤ 3 ∧
    ends (exec (.pwm true 3 512) brink) (fun t => decide (t = brink)) = true := by decide

theorem test_witness_StopThenResumeKeepsTheClock :
    (feed brink [wrCmd .stop, wrCmd .resume]).inputs = wrCmd .stop :: ([] ++ [wrCmd .resume]) ∧
    (feed brink [wrCmd .stop, .idle, wrCmd (.pwm false 0 5), wrCmd .resume]).inputs
      = wrCmd .stop :: ([.idle, wrCmd (.pwm false 0 5)] ++ [wrCmd .resume]) ∧
    (Cycle.idle.isRst = false ∧ Cycle.idle.command? = none) ∧
    ((wrCmd (.pwm false 0 5)).isRst = false ∧
      (wrCmd (.pwm false 0 5)).command? = some (.pwm false 0 5) ∧ periodCommand (.pwm false 0 5) = false) := by decide

/-- Accesses that are no command, and what a run over them leaves. -/
theorem test_witness_ResetIsQuiescent : (∀ c ∈ [wr .argPeriod 5, rd .status], Cycle.command? c = none ∧ Cycle.isRst c = false) ∧
    ∃ t, Host.Core.run Sys2Proof.core 2 { State.reset with inputs := [wr .argPeriod 5, rd .status] } = .next t ∧
      decide (t.argPeriod = 5 ∧ t.rdata = some 0 ∧ t.run = .stopped) = true := ⟨by decide, meets (by decide)⟩

/-- A step that changes the reload value, one that does not, and a reset. -/
theorem test_witness_OnlyTheCalculatorWritesTheClock :
    (∃ t, step (feed { base with argPeriod := 1 } [wrCmd .setperiod]) = .next t ∧ decide (t.reload = 8) = true) ∧
    (∃ t, step brink = .next t ∧ decide (t.reload = brink.reload) = true) ∧
    (∃ t, step (feed brink [.rst none]) = .next t ∧ decide (t.psel = .none) = true) :=
  ⟨meets (by decide), meets (by decide), meets (by decide)⟩

/-- A step that changes `RUN`, one that changes the counter by a tick, one by a start. -/
theorem test_witness_OnlyTheseWriteRunAndCounter :
    (∃ t, step (feed brink [wrCmd .stop]) = .next t ∧ decide (t.run ≠ brink.run) = true) ∧
    (∃ t, step brink = .next t ∧ decide (t.cnt ≠ brink.cnt ∧ t.run = .counting ∧ t.psel ≠ .none) = true) ∧
    (∃ t, step (feed brink [wrCmd .restart]) = .next t ∧ decide (t.dir ≠ brink.dir) = true) :=
  ⟨meets (by decide), meets (by decide), meets (by decide)⟩

/-- A channel enabled, disabled, its compare value changed, and reset. -/
theorem test_witness_OnlyTheseWriteAChannel :
    (∃ t, step (feed base [wrCmd (.pwm false 1 512)]) = .next t ∧
      decide ((base.chan .B).en = false ∧ (t.chan .B).en = true ∧ (base.chan .B).pindir = false ∧
        (t.chan .B).pindir = true) = true) ∧
    (∃ t, step (feed { base with chA := onA } [wrCmd (.dispwm 0)]) = .next t ∧
      decide (onA.en = true ∧ onA.pindir = true ∧ (t.chan .A).en = false) = true) ∧
    (∃ t, step (feed base [wrCmd (.setduty 0 1024)]) = .next t ∧ decide ((t.chan .A).cmp ≠ (base.chan .A).cmp) = true) ∧
    (∃ t, step (feed { base with chA := onA } [.rst none]) = .next t ∧
      decide ((feed { base with chA := onA } [.rst none]).nextCycle.isRst = true ∧ (t.chan .A).en = false) = true) :=
  ⟨meets (by decide), meets (by decide), meets (by decide), meets (by decide)⟩

/-- A pending overflow cleared, one raised by a tick, and a command that is neither start nor restart. -/
theorem test_witness_OnlyTheseWriteThePendingFlag :
    (∃ t, step (feed { base with ovf := true } [wr .irqAck 1]) = .next t ∧ decide (t.ovf = false) = true) ∧
    (∃ t, step brink = .next t ∧ decide (brink.ovf = false ∧ t.ovf = true) = true) ∧
    (Instr.init ≠ .start ∧ Instr.init ≠ .restart) :=
  ⟨meets (by decide), meets (by decide), by decide⟩

/-- The interrupt enabled with a new handle, disabled, and a reset. -/
theorem test_witness_OnlyTheseWriteTheCallback :
    (∃ t, step (feed { base with argHandle := 0x1234 } [wrCmd (.attach false)]) = .next t ∧
      decide (base.ovie = false ∧ t.ovie = true ∧ t.cbv ≠ base.cbv ∧ t.handle ≠ base.handle) = true) ∧
    (∃ t, step (feed { base with ovie := true, cbv := true } [wrCmd .detach]) = .next t ∧
      decide (t.ovie = false ∧ t.cbv = true) = true) ∧
    (∃ t, step (feed { base with ovie := true, cbv := true } [.rst none]) = .next t ∧ decide (t.cbv = false) = true) :=
  ⟨meets (by decide), meets (by decide), meets (by decide)⟩

/-- Each operand register written, and a step with no reset that writes neither. -/
theorem test_witness_NoCommandWritesTheOperands :
    (∃ t, step (feed base [wr .argPeriod 5]) = .next t ∧ decide (t.argPeriod = 5) = true) ∧
    (∃ t, step (feed base [wr .argHandle 6]) = .next t ∧ decide (t.argHandle = 6) = true) ∧
    (∃ t, step brink = .next t ∧ decide (brink.nextCycle.isRst = false) = true) :=
  ⟨meets (by decide), meets (by decide), meets (by decide)⟩

theorem test_base_inv : base.Inv :=
  ⟨by decide, ⟨by decide, fun n h => by cases h⟩, rfl, fun h => by cases h⟩

theorem test_brink_inv : brink.Inv :=
  ⟨by decide, ⟨by decide, fun n h => by cases h; decide⟩, rfl, fun h => by cases h⟩

/-- A state that meets the invariant and whose step, with a tick and an attach in it, answers a next state. -/
theorem test_witness_EveryStepKeepsTheInvariant : (feed brink [wrCmd (.attach false)]).Inv ∧
    ∃ t, step (feed brink [wrCmd (.attach false)]) = .next t ∧ decide (t.ovf = true ∧ t.ovie = true) = true :=
  ⟨⟨by decide, ⟨by decide, fun n h => by cases h; decide⟩, rfl, fun h => by cases h⟩, meets (by decide)⟩

/-- A run from reset that ends with the interrupt enabled. -/
theorem test_witness_EnabledInterruptHasACallback :
    ∃ t, Host.Core.run Sys2Proof.core 1 { State.reset with inputs := [wrCmd (.attach false)] } = .next t ∧
      decide (t.ovie = true) = true := meets (by decide)

theorem test_witness_DetachSilencesTheInterrupt :
    (feed brink [wrCmd .detach, wrCmd .start, .idle]).inputs = wrCmd .detach :: [wrCmd .start, .idle] ∧
    (∀ c ∈ [wrCmd .start, .idle].take 2, ∀ p, Cycle.command? c ≠ some (.attach p)) := by decide

theorem test_witness_CyclesFitSixtyFourBits : (4294967295 < 2 ^ 32 ∧ 4294967295 < 2 ^ 32) ∧
    cycles 4294967295 4294967295 = 9223372032559 := by decide

theorem test_witness_CalculatorEndsOfTheRange : cycles 16000000 8191 < 65536 ∧ cycles 1000000 131071 = 65535 ∧
    67108864 ≤ cycles 16000000 8388608 := by decide

theorem test_witness_CalculatorTakesTheSmallestDivisor : cycles 16000000 8388607 < 67108864 ∧
    67108864 ≤ cycles 16000000 8388608 ∧ Psel.div8.div? = some 8 ∧ cycles 16000000 8192 / 8 < 65536 := by decide

theorem test_witness_CalculatorIsMonotone : 8192 ≤ 65535 ∧
    (periodConfig 16000000 8192).1 = (periodConfig 16000000 65535).1 := by decide

theorem test_witness_CalculatorRangesAtSixteenMegahertz : 4294967295 < 2 ^ 32 ∧ 8191 ≤ 8191 ∧ (8192 ≤ 8192 ∧ 8192 ≤ 65535) ∧
    (65536 ≤ 65536 ∧ 65536 ≤ 524287) ∧ (524288 ≤ 524288 ∧ 524288 ≤ 2097151) ∧ (2097152 ≤ 2097152 ∧ 2097152 ≤ 8388607) ∧
    8388608 ≤ 8388608 := by decide

theorem test_witness_ConverterRoundsToNearest : FullScale.k1023 = .k1023 := by decide

theorem test_witness_ConverterProperties : FullScale.k1024.value ≤ 1024 ∧ FullScale.k1023.value ≤ 1023 ∧ 5 ≤ 6 ∧
    (3 : Half).toNat ≤ (100 : Half).toNat := by decide

/-- One state for each clause, at the ends of its range. -/
theorem test_witness_TickCases :
    (0 : Half).toNat = 0 ∧
    (1 ≤ (1 : Half).toNat ∧ (0 : Half).toNat < (1 : Half).toNat) ∧
    (1 ≤ (2 : Half).toNat ∧ (2 : Half).toNat ≤ (2 : Half).toNat ∧ 2 ≤ (2 : Half).toNat) ∧
    (1 ≤ (1 : Half).toNat ∧ (1 : Half).toNat ≤ (1 : Half).toNat ∧ (1 : Half).toNat ≤ 1) ∧
    (1 ≤ brink.reload.toNat ∧ brink.dir = .down ∧ brink.cnt.toNat ≤ 1) ∧
    (1 ≤ (8000 : Half).toNat ∧ 2 ≤ (2 : Half).toNat) := by decide

/-- One state for each clause: stopped, never configured, just loaded, one cycle to go, two to go. -/
theorem test_witness_ClockCycleCases : base.run = .stopped ∧ ({ brink with psel := .none } : State).psel = .none ∧
    ({ brink with phaseLoaded := true } : State).phaseLoaded = true ∧
    (brink.run = .counting ∧ brink.psel.div? = some 1 ∧ brink.phaseLoaded = false ∧ brink.phase.toNat = 1) ∧
    (slow.run = .counting ∧ slow.psel.div? = some 8 ∧ slow.phaseLoaded = false ∧ 2 ≤ slow.phase.toNat) := by decide

theorem test_witness_CountingCycleOfTicks : slow.cnt = 0 ∧ slow.dir = .up ∧ 1 ≤ slow.reload.toNat := by decide

theorem test_witness_TicksAreADivisorApart : slow.inputs = [] ∧ slow.rdata = none ∧ slow.phaseLoaded = false ∧
    slow.run = .counting ∧ slow.psel.div? = some 8 ∧ 1 ≤ slow.phase.toNat ∧ slow.phase.toNat ≤ 8 ∧ 1 < slow.phase.toNat ∧
    7 < 8 := by decide

theorem test_witness_FirstOverflowAfterStart :
    (feed { base with reload := 1, ovf := true } [wrCmd .start]).inputs = [wrCmd .start] ∧
    (feed { base with reload := 1, ovf := true } [wrCmd .restart]).inputs = [wrCmd .restart] ∧ base.psel.div? = some 1 ∧
    1 ≤ (1 : Half).toNat := by decide

/-- A whole counting cycle's hypotheses, and PC3's configuration for the second half. -/
theorem test_witness_CountingCycleOfClocks : (slow.inputs = [] ∧ slow.rdata = none ∧ slow.phaseLoaded = false ∧
      slow.run = .counting ∧ slow.psel.div? = some 8 ∧ ({ slow with phase := 8 } : State).phase.toNat = 8 ∧ slow.cnt = 0 ∧
      slow.dir = .up ∧ 1 ≤ slow.reload.toNat) ∧
    (periodConfig 16000000 1000).1.div? = some 1 ∧ cycles 16000000 1000 < 67108864 := by decide

/-- A reload value of 0, and one above it. -/
theorem test_witness_OverflowsAreTheAcknowledgeBoundApart :
    (brink.inputs = [] ∧ brink.rdata = none ∧ brink.phaseLoaded = false ∧ brink.run = .counting ∧ brink.psel.div? = some 1 ∧
      brink.phase.toNat = 1) ∧ base.cnt = 0 ∧ base.dir = .up ∧
    ({ brink with reload := 0 } : State).ackBound = some 1 ∧ brink.ackBound = some 16000 := by decide

theorem test_witness_OutputCompareLevel : (({ base with chA := onA } : State).chan .A).en = true ∧
    (base.chan .B).en = false := by decide

/-- OC7 and the two other ranges of the compare value, for reload 3. -/
theorem test_witness_HighTicksOfACountingCycle : slow.cnt = 0 ∧ slow.dir = .up ∧ 1 ≤ slow.reload.toNat ∧
    (({ slow with chA := onA } : State).chan .A).en = true ∧ slow.reload.toNat < onA.cmp.toNat ∧
    (1 ≤ (2 : Half).toNat ∧ (2 : Half).toNat ≤ slow.reload.toNat) ∧ (0 : Half).toNat = 0 ∧
    (2 : Half) = conv .k1024 slow.reload 512 := by decide

theorem test_witness_DispatchDeliversTheStoredHandle : base.run = .stopped ∧ ({ brink with psel := .none } : State).psel = .none ∧
    4 ≤ ({ slow with phase := 4 } : State).phase.toNat ∧
    (∃ r, dispatch { base with cbv := true, handle := 0x1234, ovf := true } = .next r ∧
      r.2 = some 0x1234 ∧ r.1.ovf = false) := ⟨by decide, by decide, by decide, ⟨_, rfl, by decide, by decide⟩⟩

/-- Every choice of the start-up, with the largest duty a word holds. -/
theorem test_witness_CanonicalStartUp : (∀ d, (some 2047 : Option Nat) = some d → d < 2048) ∧
    (∀ d, (none : Option Nat) = some d → d < 2048) ∧
    ∃ t, runCycles (canonicalStart 1000 (some 2047) none (some 7)) base = .next t ∧
      decide (t.chA.cmp = 8000 ∧ t.handle = 7) = true :=
  ⟨(fun d h => by cases h; decide), (fun d h => by cases h), meets (by decide)⟩

end Sys2Proof.Tests
end

section
/-! SUPPORT. The invariant right after reset (R7, R16, R47, R48). -/

namespace Sys2Proof.Machine

/-- The parameters left open lie in their ranges (R7, R48): the open clock is one more than a number below `2^32 - 1`, the
open base is 64 times a number. -/
theorem board_wf : Config.board.WF := by
  have hclk : Config.freeClkHz.val < 4294967295 := Config.freeClkHz.isLt
  refine ⟨?_, ?_, ?_⟩ <;> simp only [Config.board] <;> omega

/-- A phase drawn from the whole range of `PHASE` is at most 1024 (R16, R47). -/
theorem drawAnyPhase_le (k : Nat) : (drawAnyPhase k).toNat ≤ 1024 := by
  have hmod : Config.freeValue k % 1025 ≤ 1024 := Nat.lt_succ_iff.mp (Nat.mod_lt _ (by decide))
  rw [drawAnyPhase, toNat_phase hmod]
  exact hmod

/-- Right after a reset the phase is legal: it was drawn from 0 to 1024, and nothing clocks the counter. -/
theorem afterReset_phaseLegal (c : Config) (cs : List Cycle) (k : Nat) : (State.afterReset c cs k).phaseLegal := by
  refine ⟨drawAnyPhase_le (k + 3), fun n hn => ?_⟩
  rw [ecs_stopped (afterReset_run c cs k)] at hn
  cases hn

/-- A reset meets the invariant for every legal choice of the parameters, whatever is lined up and drawn. -/
theorem afterReset_inv {c : Config} (hc : c.WF) (cs : List Cycle) (k : Nat) : (State.afterReset c cs k).Inv where
  cfg := hc
  phase := afterReset_phaseLegal c cs k
  unnoted := afterReset_phaseLoaded c cs k
  callback h := by simp at h

/-- Settles O37: the reset state is a reset with the board's parameters, which are legal. -/
theorem resetMeetsTheInvariant : Obligations.ResetMeetsTheInvariant :=
  afterReset_inv board_wf [] 0

end Sys2Proof.Machine
end

section
/-! SUPPORT. What one commit does to each element of the state, said once per group of elements: the facts the
whole-machine rules rest on. `Executed` and `Committed` are the cases of a command and of a host access. -/

namespace Sys2Proof.Machine

/-- A commit is a command, or it writes nothing but the operand registers, `OVF` and the read's word (R53, R54). -/
theorem Committed.executed_or_quiet {c : Cycle} {s u : State} (h : Committed c s u) :
    (∃ i, c.command? = some i ∧ Executed (s.setRdata .none) i u) ∨
      ∃ a b o v, u = { s with argPeriod := a, argHandle := b, ovf := o, rdata := v } := by
  cases h with
  | none h => exact .inr ⟨_, _, _, _, h⟩
  | read v h => exact .inr ⟨_, _, _, _, h⟩
  | command i hc h => exact .inl ⟨i, hc, executed_of_exec h⟩
  | argPeriod v hc h => exact .inr ⟨_, _, _, _, h⟩
  | argHandle v hc h => exact .inr ⟨_, _, _, _, h⟩
  | ack v hc hv h => exact .inr ⟨_, _, _, _, h⟩

/-! Clock configuration, run state and counter -/

/-- `apply_period` where `P` is 1 writes the calculator's result, and nothing of the configuration where it is 0 (R78). -/
theorem applyPeriodIf_clock (s : State) (p : Bool) :
    ((s.applyPeriodIf p).psel = s.psel ∧ (s.applyPeriodIf p).reload = s.reload) ∨
      (p = true ∧ ((s.applyPeriodIf p).psel, (s.applyPeriodIf p).reload) = s.requestedConfig) := by
  cases p with
  | false => exact .inl ⟨rfl, rfl⟩
  | true => exact .inr ⟨rfl, rfl⟩

/-- A command keeps `PSEL` and `RELOAD`, or it computes a period and they are the calculator's result (R19). -/
theorem Executed.clock {s t : State} {i : Instr} (h : Executed s i t) :
    (t.psel = s.psel ∧ t.reload = s.reload) ∨
      (periodCommand i = true ∧ (t.psel, t.reload) = s.requestedConfig) := by
  cases h with
  | init => exact .inr ⟨rfl, rfl⟩
  | setperiod => exact .inr ⟨rfl, rfl⟩
  | pwm p ch duty x hx => simpa [periodCommand, hx] using applyPeriodIf_clock s p
  | attach p => simpa [periodCommand] using applyPeriodIf_clock s p
  | start | stop | restart | resume | resumeNop | pwmNop | setduty | setdutyNop | dispwm | dispwmNop | detach =>
    exact .inl (by simp)

/-- Only run control and `INIT` write `RUN` (R21). -/
theorem Executed.run {s t : State} {i : Instr} (h : Executed s i t) :
    t.run = s.run ∨ i ∈ [Instr.init, .start, .stop, .restart, .resume] := by
  cases h <;> simp

/-- Of the commands only `INIT` and a start write `CNT` and `DIR` (R23). -/
theorem Executed.counter {s t : State} {i : Instr} (h : Executed s i t) :
    (t.cnt = s.cnt ∧ t.dir = s.dir) ∨ i ∈ [Instr.init, .start, .restart] := by
  cases h <;> simp

/-- A commit keeps the clock configuration, or it is a command that computes a period from `ARG_PERIOD` (R19). -/
theorem Committed.clock {c : Cycle} {s u : State} (h : Committed c s u) :
    (u.psel = s.psel ∧ u.reload = s.reload) ∨
      ∃ i, c.command? = some i ∧ periodCommand i = true ∧ (u.psel, u.reload) = s.requestedConfig := by
  obtain ⟨i, hi, hx⟩ | ⟨a, b, o, v, rfl⟩ := h.executed_or_quiet
  · exact hx.clock.imp_right fun ⟨hp, he⟩ => ⟨i, hi, hp, he⟩
  · exact .inl ⟨rfl, rfl⟩

/-- A commit keeps `RUN`, or it is `INIT` or run control (R21). -/
theorem Committed.run {c : Cycle} {s u : State} (h : Committed c s u) :
    u.run = s.run ∨ ∃ i, c.command? = some i ∧ i ∈ [Instr.init, .start, .stop, .restart, .resume] := by
  obtain ⟨i, hi, hx⟩ | ⟨a, b, o, v, rfl⟩ := h.executed_or_quiet
  · exact hx.run.imp_right fun hm => ⟨i, hi, hm⟩
  · exact .inl rfl

/-- A commit keeps `CNT` and `DIR`, or it is `INIT` or a start (R23). -/
theorem Committed.counter {c : Cycle} {s u : State} (h : Committed c s u) :
    (u.cnt = s.cnt ∧ u.dir = s.dir) ∨ ∃ i, c.command? = some i ∧ i ∈ [Instr.init, .start, .restart] := by
  obtain ⟨i, hi, hx⟩ | ⟨a, b, o, v, rfl⟩ := h.executed_or_quiet
  · exact hx.counter.imp_right fun hm => ⟨i, hi, hm⟩
  · exact .inl ⟨rfl, rfl⟩

/-- A start of a configured block notes its load of `PHASE` (R109). -/
theorem startCounting_loaded {s : State} {n : Nat} (h : s.startCounting.ecs.div? = some n) :
    s.startCounting.phaseLoaded = true := by
  have hpsel : s.psel.div? = some n := by simpa using (ecs_div? h).2.2
  simp [State.startCounting, State.loadPhaseOfPsel, hpsel]

/-- A command whose cycle can still count the phase down left `PHASE` and the counter alone: `INIT` stops the counter, and
whatever loads `PHASE` notes it (R109, R110, R120). -/
theorem Executed.counter_of_clocked {s u : State} {i : Instr} {n : Nat} (h : Executed s i u)
    (hn : u.ecs.div? = some n) (hl : u.phaseLoaded = false) :
    u.phase = s.phase ∧ u.cnt = s.cnt ∧ u.dir = s.dir := by
  cases h with
  | init => exact absurd (ecs_div? hn).1 (by simp)
  | start => simp [startCounting_loaded hn] at hl
  | restart => simp [startCounting_loaded hn] at hl
  | setperiod => exact ⟨applyPeriod_phase_of_unloaded hl, by simp⟩
  | resume => exact ⟨loadPhaseOfPsel_phase_of_unloaded hl, by simp⟩
  | pwm p => exact ⟨by simpa using applyPeriodIf_phase_of_unloaded p (by simpa using hl), by simp⟩
  | attach p => exact ⟨applyPeriodIf_phase_of_unloaded p hl, by simp⟩
  | stop | resumeNop | pwmNop | setduty | setdutyNop | dispwm | dispwmNop | detach => simp

/-- The same of any commit. -/
theorem Committed.counter_of_clocked {c : Cycle} {s u : State} {n : Nat} (h : Committed c s u)
    (hn : u.ecs.div? = some n) (hl : u.phaseLoaded = false) :
    u.phase = s.phase ∧ u.cnt = s.cnt ∧ u.dir = s.dir := by
  obtain ⟨i, -, hx⟩ | ⟨a, b, o, v, rfl⟩ := h.executed_or_quiet
  · exact hx.counter_of_clocked hn hl
  · exact ⟨rfl, rfl, rfl⟩

/-- A clock cycle leaves the counter alone, or it holds a tick (R110, R111). -/
theorem clockCycle_counter (s : State) :
    (s.clockCycle.cnt = s.cnt ∧ s.clockCycle.dir = s.dir) ∨
      ∃ n, s.ecs.div? = some n ∧ s.phaseLoaded = false ∧ s.phase = 1 ∧
        s.clockCycle.cnt = s.tick.cnt ∧ s.clockCycle.dir = s.tick.dir := by
  obtain e | ⟨n, hn, hl, hp, e⟩ | ⟨n, -, -, -, e⟩ := clockCycle_cases s
  · exact .inl (by simp [e])
  · exact .inr ⟨n, hn, hl, hp, by simp [e]⟩
  · exact .inl (by simp [e])

/-! Channels, flags and the callback -/

/-- The commands that write channel `x`, each with what it makes of the channel's state `c` (R26, R27, R67). -/
inductive WritesChannel (x : ChannelId) (c d : Channel) : Instr → Prop where
  | pwm (p : Bool) (ch duty : Nat) (h : channelOf ch = some x) (hen : d.en = true) (hpin : d.pindir = true) :
      WritesChannel x c d (.pwm p ch duty)
  | setduty (ch duty : Nat) (h : channelOf ch = some x) (hen : d.en = c.en) (hpin : d.pindir = c.pindir) :
      WritesChannel x c d (.setduty ch duty)
  | dispwm (ch : Nat) (h : channelOf ch = some x) (e : d = { c with en := false }) : WritesChannel x c d (.dispwm ch)

/-- A command that writes channel `y` leaves the other channel alone: a fact about `x` need only be shown where `x = y`. -/
theorem chan_setChan_or {P : Prop} {s : State} {x y : ChannelId} {c : Channel} (h : x = y → P) :
    (s.setChan y c).chan x = s.chan x ∨ P := by
  by_cases hxy : x = y
  · exact .inr (h hxy)
  · exact .inl (chan_setChan_other s y x c hxy)

@[simp] theorem applyPeriodIf_chan (s : State) (p : Bool) (x : ChannelId) : (s.applyPeriodIf p).chan x = s.chan x := by
  cases x <;> simp

/-- A command leaves a channel alone or is one of the three PWM commands on it (R26, R27, R67). -/
theorem Executed.chan {s t : State} {i : Instr} (h : Executed s i t) (x : ChannelId) :
    t.chan x = s.chan x ∨ WritesChannel x (s.chan x) (t.chan x) i := by
  cases h with
  | pwm p ch duty y hy =>
    rw [← applyPeriodIf_chan s p x]
    refine chan_setChan_or ?_
    rintro rfl
    exact .pwm p ch duty hy (by rw [chan_setChan_same]) (by rw [chan_setChan_same])
  | setduty ch duty y hy =>
    refine chan_setChan_or ?_
    rintro rfl
    exact .setduty ch duty hy (by rw [chan_setChan_same]) (by rw [chan_setChan_same])
  | dispwm ch y hy =>
    refine chan_setChan_or ?_
    rintro rfl
    exact .dispwm ch hy (chan_setChan_same s x _)
  | init | setperiod | start | stop | restart | resume | resumeNop | pwmNop | setdutyNop | dispwmNop | attach | detach =>
    exact .inl (by cases x <;> simp)

/-- The same of any commit. -/
theorem Committed.chan {c : Cycle} {s u : State} (h : Committed c s u) (x : ChannelId) :
    u.chan x = s.chan x ∨ ∃ i, c.command? = some i ∧ WritesChannel x (s.chan x) (u.chan x) i := by
  obtain ⟨i, hi, hx⟩ | ⟨a, b, o, v, rfl⟩ := h.executed_or_quiet
  · obtain e | hw := hx.chan x
    · exact .inl (e.trans (by cases x <;> rfl))
    · exact .inr ⟨i, hi, by cases x <;> exact hw⟩
  · exact .inl (by cases x <;> rfl)

/-- A clock cycle leaves both channels alone (R26, R27). -/
@[simp] theorem clockCycle_chan (s : State) (x : ChannelId) : s.clockCycle.chan x = s.chan x := by
  cases x <;> simp

/-- A start clears `OVF`, and no other command writes it (R28). -/
theorem Executed.ovf {s t : State} {i : Instr} (h : Executed s i t) :
    t.ovf = s.ovf ∨ ((i = .start ∨ i = .restart) ∧ t.ovf = false) := by
  cases h <;> simp

/-- A commit keeps `OVF`, or it clears it and is a start or an acknowledge with bit 0 set (R28). -/
theorem Committed.ovf {c : Cycle} {s u : State} (h : Committed c s u) :
    u.ovf = s.ovf ∨ (u.ovf = false ∧
      (c.command? = some .start ∨ c.command? = some .restart ∨ ∃ v : Word, c = wr .irqAck v ∧ v.getLsbD 0 = true)) := by
  cases h with
  | none h => exact .inl (by simp [h])
  | read v h => exact .inl (by simp [h])
  | command i hc h =>
    obtain e | ⟨rfl | rfl, e⟩ := (executed_of_exec h).ovf
    · exact .inl (by simpa using e)
    · exact .inr ⟨e, .inl hc⟩
    · exact .inr ⟨e, .inr (.inl hc)⟩
  | argPeriod v hc h => exact .inl (by simp [h])
  | argHandle v hc h => exact .inl (by simp [h])
  | ack v hc hv h => exact .inr ⟨by simp [h], .inr (.inr ⟨v, hc, hv⟩)⟩

/-- What a command does to `OVIE`, `CBV` and `HANDLE`: nothing, or it is `DETACH` or `ATTACH` (R29, R30). -/
theorem Executed.callback {s t : State} {i : Instr} (h : Executed s i t) :
    (t.ovie = s.ovie ∧ t.cbv = s.cbv ∧ t.handle = s.handle) ∨
    (i = .detach ∧ t.ovie = false ∧ t.cbv = s.cbv ∧ t.handle = s.handle) ∨
    (∃ p, i = .attach p ∧ t.ovie = true ∧ t.cbv = true ∧ t.handle = s.argHandle) := by
  cases h with
  | attach p => exact .inr (.inr ⟨p, rfl, rfl, rfl, rfl⟩)
  | detach => exact .inr (.inl ⟨rfl, rfl, rfl, rfl⟩)
  | init | setperiod | start | stop | restart | resume | resumeNop | pwm | pwmNop | setduty | setdutyNop | dispwm
  | dispwmNop => exact .inl (by simp)

/-- The same of any commit. -/
theorem Committed.callback {c : Cycle} {s u : State} (h : Committed c s u) :
    (u.ovie = s.ovie ∧ u.cbv = s.cbv ∧ u.handle = s.handle) ∨
    (c.command? = some .detach ∧ u.ovie = false ∧ u.cbv = s.cbv ∧ u.handle = s.handle) ∨
    (∃ p, c.command? = some (.attach p) ∧ u.ovie = true ∧ u.cbv = true ∧ u.handle = s.argHandle) := by
  obtain ⟨i, hi, hx⟩ | ⟨a, b, o, v, rfl⟩ := h.executed_or_quiet
  · obtain e | ⟨rfl, e⟩ | ⟨p, rfl, e⟩ := hx.callback
    · exact .inl e
    · exact .inr (.inl ⟨hi, e⟩)
    · exact .inr (.inr ⟨p, hi, e⟩)
  · exact .inl ⟨rfl, rfl, rfl⟩

/-! The operand registers -/

/-- A commit keeps each operand register or is the host's write of its new value (R33, R38). -/
theorem Committed.operands {c : Cycle} {s u : State} (h : Committed c s u) :
    (u.argPeriod = s.argPeriod ∨ c = wr .argPeriod u.argPeriod) ∧
      (u.argHandle = s.argHandle ∨ c = wr .argHandle u.argHandle) := by
  cases h with
  | none h => simp [h]
  | read v h => simp [h]
  | command i hc h =>
    obtain ⟨-, hp, hh, -⟩ := exec_frame h
    exact ⟨.inl hp, .inl hh⟩
  | argPeriod v hc h => simp [h, hc]
  | argHandle v hc h => simp [h, hc]
  | ack v hc hv h => simp [h]

end Sys2Proof.Machine
end

section
/-! SUPPORT. The legal phase, kept by every commit and by the clock (R16, R24, R109, R110). -/

namespace Sys2Proof.Machine

/-- A block that was never configured is not clocked, whatever `RUN` is (R22). -/
theorem ecs_unconfigured {s : State} (h : s.psel.div? = none) : s.ecs.div? = none := by
  cases hr : s.run with
  | stopped => rw [ecs_stopped hr]; rfl
  | counting => rw [ecs_counting hr, h]

/-- Any phase up to 1024 is legal while nothing clocks the counter. -/
theorem phaseLegal_of_unclocked {s : State} (hp : s.phase.toNat ≤ 1024) (h : s.ecs.div? = none) : s.phaseLegal :=
  ⟨hp, fun n hn => by rw [h] at hn; cases hn⟩

/-- A phase out of `1 .. DIV(PSEL)` is legal, whatever the run state. -/
theorem phaseLegal_of_mem {s : State} {d k : Nat} (hd : s.psel.div? = some d) (h1 : 1 ≤ k) (hk : k ≤ d)
    (hp : s.phase = BitVec.ofNat 11 k) : s.phaseLegal := by
  have hk' : k ≤ 1024 := hk.trans (div?_bounds hd).2
  have hphase : s.phase.toNat = k := by rw [hp, toNat_phase hk']
  refine ⟨hphase ▸ hk', fun n hn => ?_⟩
  obtain rfl : d = n := Option.some.inj (hd.symm.trans (ecs_div? hn).2.2)
  exact hphase ▸ ⟨h1, hk⟩

/-- A phase of at least 1 counts down by one, without the wrap of its eleven bits (R110). -/
theorem toNat_phase_sub_one {p : BitVec 11} (h : 1 ≤ p.toNat) : (p - 1).toNat = p.toNat - 1 :=
  BitVec.toNat_sub_of_le (BitVec.le_def.mpr h)

/-- Whether the phase is legal depends on `PHASE`, `RUN` and `PSEL` only. -/
theorem phaseLegal_congr {s u : State} (hp : u.phase = s.phase) (hr : u.run = s.run) (hc : u.psel = s.psel)
    (h : s.phaseLegal) : u.phaseLegal := by
  simpa only [State.phaseLegal, State.ecs, hp, hr, hc] using h

/-- A start or a resume leaves a legal phase: drawn, or not clocked for want of a selector (R89, R92, R109). -/
theorem loadPhaseOfPsel_phaseLegal {s : State} (hp : s.phase.toNat ≤ 1024) : s.loadPhaseOfPsel.phaseLegal := by
  obtain ⟨hnone, e⟩ | ⟨d, k, n, hd, h1, hk, e⟩ := loadPhaseOfPsel_phaseDrawn s
  · rw [e]
    exact phaseLegal_of_unclocked hp (ecs_unconfigured hnone)
  · rw [e]
    exact phaseLegal_of_mem hd h1 hk rfl

/-- `apply_period` keeps the phase legal: a counting block that changes its selector draws it anew (R78, R109). -/
theorem applyPeriod_phaseLegal {s : State} (h : s.phaseLegal) : s.applyPeriod.phaseLegal := by
  obtain ⟨hsame, e⟩ | ⟨d, k, n, -, -, hd, h1, hk, e⟩ := applyPeriod_periodApplied s
  · cases hr : s.run with
    | stopped => exact phaseLegal_of_unclocked (by rw [e]; exact h.1) (by rw [ecs_stopped (by simpa using hr)]; rfl)
    | counting =>
      have hc : s.applyPeriod.psel = s.psel := not_not.mp fun hne => hsame ⟨hr, hne⟩
      exact phaseLegal_congr (by rw [e]) (by simp) hc h
  · rw [e]
    exact phaseLegal_of_mem hd h1 hk rfl

/-- The same where `P` decides whether the period is applied (R66). -/
theorem applyPeriodIf_phaseLegal {s : State} (p : Bool) (h : s.phaseLegal) : (s.applyPeriodIf p).phaseLegal := by
  cases p with
  | false => exact h
  | true => exact applyPeriod_phaseLegal h

/-- Every command keeps the phase legal: it stops the counter, draws the phase, or leaves phase and clock alone. -/
theorem Executed.phaseLegal {s t : State} {i : Instr} (h : Executed s i t) (hs : s.phaseLegal) : t.phaseLegal := by
  cases h with
  | init => exact phaseLegal_of_unclocked hs.1 rfl
  | stop => exact phaseLegal_of_unclocked hs.1 rfl
  | setperiod => exact applyPeriod_phaseLegal hs
  | start => exact loadPhaseOfPsel_phaseLegal hs.1
  | restart => exact loadPhaseOfPsel_phaseLegal hs.1
  | resume => exact loadPhaseOfPsel_phaseLegal hs.1
  | pwm p => exact phaseLegal_congr (by simp) (by simp) (by simp) (applyPeriodIf_phaseLegal p hs)
  | attach p => exact phaseLegal_congr rfl rfl rfl (applyPeriodIf_phaseLegal p hs)
  | resumeNop | pwmNop | setduty | setdutyNop | dispwm | dispwmNop | detach =>
    exact phaseLegal_congr (by simp) (by simp) (by simp) hs

/-- The block's clock keeps the phase legal: it starts again from the divisor where it runs out, and is at least 2 where it
counts down (R110). -/
theorem clockCycle_phaseLegal {s : State} (h : s.phaseLegal) : s.clockCycle.phaseLegal := by
  obtain e | ⟨n, hn, -, -, e⟩ | ⟨n, hn, -, hne, e⟩ := clockCycle_cases s
  · rw [e]
    exact h
  · obtain ⟨-, -, hd⟩ := ecs_div? hn
    exact phaseLegal_of_mem (by simpa using hd) (div?_bounds hd).1 le_rfl (by rw [e])
  · obtain ⟨-, -, hd⟩ := ecs_div? hn
    obtain ⟨h1, hle⟩ := h.2 n hn
    have hne' : s.phase.toNat ≠ 1 := fun e1 => hne (BitVec.eq_of_toNat_eq e1)
    refine phaseLegal_of_mem (k := s.phase.toNat - 1) (by simpa using hd) (by omega) (by omega) ?_
    rw [e]
    exact BitVec.eq_of_toNat_eq (by rw [toNat_phase_sub_one h1, toNat_phase (by have := h.1; omega)])

end Sys2Proof.Machine
end

section
/-! SUPPORT. The invariant every step keeps, and that an enabled interrupt has a callback in every run from reset. -/

namespace Sys2Proof.Machine

/-- No commit touches the parameters (R7, R8, R10). -/
theorem Committed.cfg {c : Cycle} {s u : State} (h : Committed c s u) : u.cfg = s.cfg := by
  obtain ⟨i, -, hx⟩ | ⟨a, b, o, v, rfl⟩ := h.executed_or_quiet
  · cases hx <;> simp
  · rfl

/-- Every commit keeps the phase legal. -/
theorem Committed.phaseLegal {c : Cycle} {s u : State} (h : Committed c s u) (hs : s.phaseLegal) : u.phaseLegal := by
  obtain ⟨i, -, hx⟩ | ⟨a, b, o, v, rfl⟩ := h.executed_or_quiet
  · exact hx.phaseLegal hs
  · exact hs

/-- Every commit keeps `OVIE = 1` implying `CBV = 1`: `ATTACH` sets both, and nothing clears `CBV` (R29, R30, R32). -/
theorem Committed.ovie_cbv {c : Cycle} {s u : State} (h : Committed c s u) (hs : s.ovie = true → s.cbv = true) :
    u.ovie = true → u.cbv = true := by
  obtain ⟨ho, hc, -⟩ | ⟨-, ho, -⟩ | ⟨p, -, -, hc, -⟩ := h.callback
  · rw [ho, hc]; exact hs
  · simp [ho]
  · exact fun _ => hc

/-- A reset cycle meets the invariant as soon as the parameters are legal (R47, R129). -/
theorem resetCycle_inv {s : State} (hc : s.cfg.WF) (a : Option Access) : (resetCycle a s).Inv :=
  have hr := afterReset_inv hc s.inputs s.draws
  ⟨hr.cfg, hr.phase, hr.unnoted, hr.callback⟩

/-- A commit and the clock after it keep the invariant; the clock ends the note of a load (R110). -/
theorem Committed.clockCycle_inv {c : Cycle} {s u : State} (h : Committed c s u) (hs : s.Inv) : u.clockCycle.Inv where
  cfg := by rw [clockCycle_cfg, h.cfg]; exact hs.cfg
  phase := clockCycle_phaseLegal (h.phaseLegal hs.phase)
  unnoted := clockCycle_phaseLoaded u
  callback := by rw [clockCycle_ovie, clockCycle_cbv]; exact h.ovie_cbv hs.callback

/-- Taking the next cycle from the host's list touches nothing the invariant speaks of. -/
theorem popped_inv {s : State} (hs : s.Inv) : s.popped.Inv := ⟨hs.cfg, hs.phase, hs.unnoted, hs.callback⟩

/-- Settles O38: a reset cycle meets the invariant, and a commit keeps what the clock then completes to it. -/
theorem everyStepKeepsTheInvariant : Obligations.EveryStepKeepsTheInvariant := by
  intro s t h
  obtain ⟨a, -, rfl⟩ | ⟨-, u, hu, rfl⟩ := step_next_cases h
  · exact ⟨fun hs => resetCycle_inv (popped_inv hs).cfg a, rfl⟩
  · exact ⟨fun hs => hu.clockCycle_inv (popped_inv hs), (clockCycle_cfg u).trans hu.cfg⟩

/-- Settles O39: the invariant holds after reset with any cycles lined up, and every step of the run keeps it. -/
theorem enabledInterruptHasACallback : Obligations.EnabledInterruptHasACallback := by
  intro cs k t h
  have hinv : t.Inv :=
    run_invariant (fun s u hs hu => (everyStepKeepsTheInvariant s u hu).1 hs) k (afterReset_inv board_wf cs 0) h
  exact ⟨hinv.callback, fun hirq => hinv.callback (Bool.and_eq_true_iff.mp hirq).2⟩

end Sys2Proof.Machine
end

section
/-! SUPPORT. Who may write which element: each rule is the commit's lemma for that element carried through the clock. -/

namespace Sys2Proof.Machine

/-- Settles O31: the clock keeps `PSEL` and `RELOAD`, so only a reset and a period command write them. -/
theorem onlyTheCalculatorWritesTheClock : Obligations.OnlyTheCalculatorWritesTheClock := by
  intro s t h
  obtain ⟨a, ha, rfl⟩ | ⟨-, u, hu, rfl⟩ := step_next_cases h
  · exact .inr (.inl (by rw [ha]; rfl))
  · rw [clockCycle_psel, clockCycle_reload]
    exact hu.clock.imp_right .inr

/-- Settles O32: a counter that changed was written by the commit, or by a tick that found `PHASE` and the counter as the
step did. -/
theorem onlyTheseWriteRunAndCounter : Obligations.OnlyTheseWriteRunAndCounter := by
  refine ⟨fun s t h => ?_, fun s => ?_⟩
  · obtain ⟨a, ha, rfl⟩ | ⟨-, u, hu, rfl⟩ := step_next_cases h
    · have hr : s.nextCycle.isRst = true := by rw [ha]; rfl
      exact ⟨.inr (.inl hr), .inr (.inl hr)⟩
    refine ⟨by rw [clockCycle_run]; exact hu.run.imp_right .inr, ?_⟩
    obtain ⟨hcnt, hdir⟩ | ⟨n, hn, hl, hp, hcnt, hdir⟩ := clockCycle_counter u
    · rw [hcnt, hdir]
      exact hu.counter.imp_right fun hi => .inr (.inl hi)
    · obtain ⟨hphase, hc, hd⟩ := hu.counter_of_clocked hn hl
      obtain ⟨hrun, hpsel, -⟩ := ecs_div? hn
      have htick := tick_counter_congr (s := { s with reload := u.reload }) (u := u) rfl hc hd
      rw [clockCycle_run, clockCycle_psel, clockCycle_reload, hcnt, hdir]
      exact .inr (.inr (.inr ⟨hrun, hpsel, hphase.symm.trans hp, htick⟩))
  · obtain ⟨t, ht, hxt⟩ := exec_executed .stop s
    obtain ⟨u, hu, hxu⟩ := exec_executed .resume s
    obtain ⟨htc, htd⟩ := hxt.counter.resolve_right (by decide)
    obtain ⟨huc, hud⟩ := hxu.counter.resolve_right (by decide)
    exact ⟨t, u, ht, htc, htd, hu, huc, hud⟩

/-- Settles O33: of the cycles without reset only the three PWM commands write a channel, each its own elements of it. -/
theorem onlyTheseWriteAChannel : Obligations.OnlyTheseWriteAChannel := by
  intro s t x h
  obtain ⟨a, ha, rfl⟩ | ⟨hr, u, hu, rfl⟩ := step_next_cases h
  · refine ⟨fun _ => by cases x <;> exact ⟨rfl, rfl⟩, fun hr => ?_⟩
    rw [ha] at hr
    cases hr
  · refine ⟨fun hr' => absurd (hr.symm.trans hr') Bool.false_ne_true, fun _ => ?_⟩
    have hpopped : s.popped.chan x = s.chan x := by cases x <;> rfl
    have hchan := hu.chan x
    rw [hpopped] at hchan
    rw [clockCycle_chan]
    obtain e | ⟨i, hi, hw⟩ := hchan
    · simp +contextual [e]
    · cases hw with
      | pwm p ch duty hch hen hpin =>
        exact ⟨fun _ => hpin, fun _ _ => ⟨p, ch, duty, hi, hch⟩, fun _ _ => ⟨p, ch, duty, hi, hch⟩,
          by simp [hen], fun _ => ⟨ch, duty, hch, .inr ⟨p, hi⟩⟩⟩
      | setduty ch duty hch hen hpin =>
        exact ⟨by simp [hpin], by simp +contextual [hpin], by simp +contextual [hen], by simp +contextual [hen],
          fun _ => ⟨ch, duty, hch, .inl hi⟩⟩
      | dispwm ch hch e =>
        exact ⟨by simp [e], by simp +contextual [e], by simp [e], fun _ _ => ⟨ch, hi, hch⟩, by simp [e]⟩

/-- Settles O34: the clock never clears `OVF` and sets it by a tick alone; a commit never sets it. -/
theorem onlyTheseWriteThePendingFlag : Obligations.OnlyTheseWriteThePendingFlag := by
  refine ⟨fun s t h => ?_, fun s i hstart hrestart => ?_⟩
  · obtain ⟨a, ha, rfl⟩ | ⟨-, u, hu, rfl⟩ := step_next_cases h
    · exact ⟨fun _ _ => .inl (by rw [ha]; rfl), fun _ ht => absurd ht Bool.false_ne_true⟩
    refine ⟨fun hs ht => .inr ?_, fun hs ht => ?_⟩
    · obtain e | ⟨-, hc⟩ := hu.ovf
      · have hset : u.clockCycle.ovf = true := clockCycle_keeps_ovf (e.trans hs)
        exact absurd (ht.symm.trans hset) Bool.false_ne_true
      · exact hc
    · have hclear : u.ovf = false := hu.ovf.elim (fun e => e.trans hs) And.left
      obtain ⟨n, hn, hl, hp, hover⟩ := clockCycle_sets_ovf hclear ht
      obtain ⟨hphase, hc, hd⟩ := hu.counter_of_clocked hn hl
      obtain ⟨hrun, hpsel, -⟩ := ecs_div? hn
      have htick := tickOverflows_congr (s := { s with reload := u.reload }) (u := u) rfl hc hd
      rw [clockCycle_run, clockCycle_psel, clockCycle_reload]
      exact ⟨hrun, hpsel, hphase.symm.trans hp, htick.symm.trans hover⟩
  · obtain ⟨t, ht, hx⟩ := exec_executed i s
    exact ⟨t, ht, hx.ovf.resolve_right fun ⟨hi, _⟩ => hi.elim hstart hrestart⟩

/-- Settles O35: the clock writes none of the three, and of the commits only `ATTACH` and `DETACH` do. -/
theorem onlyTheseWriteTheCallback : Obligations.OnlyTheseWriteTheCallback := by
  intro s t h
  obtain ⟨a, ha, rfl⟩ | ⟨hr, u, hu, rfl⟩ := step_next_cases h
  · refine ⟨fun _ => ⟨rfl, rfl⟩, fun hr => ?_⟩
    rw [ha] at hr
    cases hr
  · refine ⟨fun hr' => absurd (hr.symm.trans hr') Bool.false_ne_true, fun _ => ?_⟩
    rw [clockCycle_ovie, clockCycle_cbv, clockCycle_handle]
    obtain ⟨ho, hc, hh⟩ | ⟨hi, ho, hc, hh⟩ | ⟨p, hi, ho, hc, hh⟩ := hu.callback
    · simp +contextual [ho, hc, hh, State.popped]
    · simp [ho, hc, hh, hi, State.popped]
    · exact ⟨fun _ _ => ⟨p, hi⟩, by simp [ho], fun _ => hc, fun _ => ⟨hc, hh, p, hi⟩⟩

/-- Settles O36: no command and no clock cycle writes an operand register, and the host's write puts in its own value. -/
theorem noCommandWritesTheOperands : Obligations.NoCommandWritesTheOperands := by
  refine ⟨fun s i => ?_, fun s t h hr => ?_⟩
  · obtain ⟨t, ht⟩ := exec_next i s
    obtain ⟨-, hp, hh, -⟩ := exec_frame ht
    exact ⟨t, ht, hp, hh⟩
  · obtain ⟨a, ha, rfl⟩ | ⟨-, u, hu, rfl⟩ := step_next_cases h
    · rw [ha] at hr
      cases hr
    · rw [clockCycle_argPeriod, clockCycle_argHandle]
      exact hu.operands

end Sys2Proof.Machine
end

section
/-! SUPPORT. The clock's part of a cycle, and the step of a `CMD` write. -/

namespace Sys2Proof.Machine

/-- Settles O49: the clock's cases, with the phase as a number. -/
theorem clockCycleCases : Obligations.ClockCycleCases := by
  intro s
  refine ⟨?_, clockCycle_loaded, fun n hr hd hl hp => ?_, fun n hr hd hl hp => ?_⟩
  · rintro (hr | hc)
    · exact clockCycle_unclocked (by rw [ecs_stopped hr]; rfl)
    · exact clockCycle_unclocked (ecs_unconfigured (div?_eq_none.mpr hc))
  · have hn : s.ecs.div? = some n := by rw [ecs_counting hr, hd]
    exact ⟨_, toNat_phase (div?_bounds hd).2, clockCycle_tick hn hl (BitVec.eq_of_toNat_eq hp)⟩
  · have hn : s.ecs.div? = some n := by rw [ecs_counting hr, hd]
    have hne : s.phase ≠ 1 := by rintro e; rw [e] at hp; exact absurd hp (by decide)
    exact ⟨_, toNat_phase_sub_one (by omega), clockCycle_count hn hl hne⟩

/-- Settles O7: every command completes, and the cycle of its `CMD` write is that commit and then the clock. -/
theorem stepRunsTheDecodedCommand : Obligations.StepRunsTheDecodedCommand := by
  refine ⟨fun s w i rest hin hd => ?_, fun s w => ?_⟩
  · obtain ⟨t, ht⟩ := exec_next i { s with inputs := rest, rdata := none }
    exact ⟨t, ht, (step_cons hin).trans (runCycle_cmdWrite hd ht)⟩
  · have hw : BitVec.ofNat 32 (w.toNat % 2 ^ 32) = w := by
      rw [Nat.mod_eq_of_lt w.isLt, BitVec.ofNat_toNat, BitVec.setWidth_eq]
    rw [State.withFetchWord, hw]
    rfl

end Sys2Proof.Machine
end

section
/-! SUPPORT. The register window: what an admitted access and a non-admitted one come to (R51, R53, R54), and the words made
of flags as bits and as numbers (R39, R40, R42). -/

namespace Sys2Proof.Machine

/-! The access forms -/

/-- An access at a window offset begins inside the window (R48). -/
theorem inWindow_of_mem {a : Access} (h0 : 0 ≤ a.off) (h64 : a.off < 64) : a.inWindow = true :=
  decide_eq_true ⟨h0, h64⟩

/-- A word access at a window offset that is a multiple of four is admitted (R51). -/
theorem admitted_of_aligned {a : Access} {off : Nat} (ho : a.off = off) (hs : a.size = .word) (h64 : off < 64)
    (h4 : off % 4 = 0) : a.admitted = true :=
  Bool.and_eq_true_iff.mpr ⟨inWindow_of_mem (by omega) (by omega), decide_eq_true ⟨hs, by omega⟩⟩

/-- A narrower access, or one at another offset, is not admitted (R51). -/
theorem not_admitted_of {a : Access} (h : a.size ≠ .word ∨ a.off % 4 ≠ 0) : a.admitted = false := by
  have hform : ¬ (a.size = .word ∧ a.off % 4 = 0) := by rwa [not_and_or]
  rw [Access.admitted, decide_eq_false hform, Bool.and_false]

/-! What an access comes to -/

/-- A read is answered and does nothing else (R54, R56). -/
theorem accessBlock_read (off : Int) (size : Size) (s : State) :
    accessBlock (.read off size) s = .next (s.setRdata (s.answer (.read off size))) := rfl

/-- A write that is not admitted is ignored (R51). -/
theorem accessBlock_write_not_admitted {off : Int} {size : Size} {v : Word}
    (h : Access.admitted (.write off size v) = false) (s : State) :
    accessBlock (.write off size v) s = .next (s.setRdata none) := by
  rw [accessBlock, h]; rfl

/-- An admitted write is the register write at its offset (R53). -/
theorem accessBlock_write_aligned {off : Nat} (h64 : off < 64) (h4 : off % 4 = 0) (v : Word) (s : State) :
    accessBlock (.write off .word v) s = busWrite off v (s.setRdata none) := by
  rw [accessBlock, if_pos (admitted_of_aligned rfl rfl h64 h4), Int.toNat_natCast]

/-- An admitted read answers the register at its offset (R54). -/
theorem accessBlock_read_aligned {off : Nat} (h64 : off < 64) (h4 : off % 4 = 0) (s : State) :
    accessBlock (.read off .word) s = .next (s.setRdata (some (s.regRead off))) := by
  rw [accessBlock_read, answer_admitted (admitted_of_aligned rfl rfl h64 h4)]; rfl

/-- An acknowledge with bit 0 set clears `OVF` (R44). -/
theorem busWrite_ack_set {v : Word} (h : v.getLsbD 0 = true) (s : State) :
    busWrite 0x24 v s = .next (s.setOvf false) := by
  rw [busWrite, if_pos h]

/-- An acknowledge with bit 0 clear does nothing (R44). -/
theorem busWrite_ack_clear {v : Word} (h : v.getLsbD 0 = false) (s : State) : busWrite 0x24 v s = .next s := by
  rw [busWrite, h]; rfl

/-- A write to a read-only or reserved offset does nothing (R45, R53). -/
theorem busWrite_other {off : Nat} (h0 : off ≠ 0x00) (h4 : off ≠ 0x04) (h8 : off ≠ 0x08) (h24 : off ≠ 0x24) (v : Word)
    (s : State) : busWrite off v s = .next s := by
  unfold busWrite
  split
  · exact absurd rfl h0
  · exact absurd rfl h4
  · exact absurd rfl h8
  · exact absurd rfl h24
  · rfl

/-- A write-only or reserved offset reads 0 (R45, R54). -/
theorem regRead_unreadable {off : Nat} (h : off = 0x00 ∨ 0x24 ≤ off) (s : State) : s.regRead off = 0 := by
  unfold State.regRead
  split
  case h_9 => rfl
  all_goals omega

/-! The words made of flags -/

theorem runBit_eq_true {r : RunState} : r.bit = true ↔ r = .counting := by cases r <;> simp [RunState.bit]

theorem configured_eq_true {s : State} : s.configured = true ↔ s.psel ≠ .none := decide_eq_true_iff

theorem toNat_dirBit (d : Dir) : (BitVec.ofBool d.bit).toNat = if d = .down then 1 else 0 := by cases d <;> rfl

/-- Where a word shows the bits of a list, lowest first, the word with one more bit below it shows the longer list. -/
theorem getLsbD_append_ofBool {w : Nat} {x : BitVec w} {bits : List Bool} (h : ∀ i, x.getLsbD i = bits.getD i false)
    (b : Bool) (i : Nat) : (x ++ BitVec.ofBool b).getLsbD i = (b :: bits).getD i false := by
  cases i with
  | zero => exact BitVec.getLsbD_concat_zero
  | succ i => exact BitVec.getLsbD_concat_succ.trans (h i)

/-- The `STATUS` word bit by bit, bit 0 first, and no bit above the tenth (R39, R54). -/
theorem statusWord_getLsbD (s : State) : ∀ i, s.statusWord.getLsbD i =
    [s.run.bit, s.ovf, s.ovie, s.cbv, s.chA.en, s.chB.en, s.chA.pindir, s.chB.pindir, s.irq, s.configured].getD i false := by
  have hpad : ∀ i, (0#22).getLsbD i = [].getD i false := by simp
  iterate 10 refine getLsbD_append_ofBool ?_ _
  exact hpad

/-- The `STATUS` word has ten bits (R39). -/
theorem statusWord_lt (s : State) : s.statusWord.toNat < 1024 := by
  refine Nat.lt_pow_two_of_testBit (n := 10) _ fun i hi => ?_
  exact (statusWord_getLsbD s i).trans (List.getD_eq_default _ _ hi)

/-- Two fields side by side, as a number. -/
theorem toNat_append_eq_add {m n : Nat} (x : BitVec m) (y : BitVec n) :
    (x ++ y).toNat = 2 ^ n * x.toNat + y.toNat := by
  rw [BitVec.toNat_append, ← Nat.shiftLeft_add_eq_or_of_lt y.isLt, Nat.shiftLeft_eq, Nat.mul_comm]

/-- The `CONFIG` word as a number (R20, R40). -/
theorem configWord_toNat (s : State) :
    s.configWord.toNat = 2 ^ 24 + 2 ^ 16 * s.psel.code.toNat + s.reload.toNat := by
  simp only [State.configWord, toNat_append_eq_add, BitVec.toNat_ofNat]
  omega

/-- The `COUNTER` word as a number (R42). -/
theorem counterWord_toNat (s : State) :
    s.counterWord.toNat = (if s.dir = .down then 2 ^ 16 else 0) + s.cnt.toNat := by
  simp only [State.counterWord, toNat_append_eq_add, BitVec.toNat_ofNat, toNat_dirBit]
  split <;> omega

/-- A compare register as a number (R41). -/
theorem cmpWord_toNat (c : Channel) : c.cmpWord.toNat = c.cmp.toNat :=
  BitVec.toNat_setWidth_of_le (by decide)

/-- Lane `k` of a word carries its bits from `8k` on (R52). -/
theorem byteLane_getLsbD (w : Word) (k : Nat) {i : Nat} (h : i < 8) : (byteLane w k).getLsbD i = w.getLsbD (8 * k + i) := by
  rw [byteLane, BitVec.getLsbD_extractLsb', decide_eq_true h, Bool.true_and]

/-- The byte lanes of a register are those of its word (R52). -/
theorem laneByte_add (s : State) {off k : Nat} (h4 : off % 4 = 0) (hk : k < 4) :
    s.laneByte (off + k) = byteLane (s.regRead off) k := by
  have hlane : (off + k) % 4 = k := by omega
  rw [State.laneByte, hlane, Nat.add_sub_cancel]

/-! The statements -/

/-- Settles O10: the access is not admitted, so a write is ignored and a read inside the window is answered with 0. -/
theorem nonAdmittedAccessIsInert : Obligations.NonAdmittedAccessIsInert := by
  intro s off size v rest h0 h64 hform
  refine ⟨fun hin => ?_, fun hin => ?_⟩
  · have hwrite : Access.admitted (.write off size v) = false := not_admitted_of hform
    exact (step_cons hin).trans (runCycle_access (accessBlock_write_not_admitted hwrite _))
  · have hread : Access.admitted (.read off size) = false := not_admitted_of hform
    have hzero := answer_not_admitted (inWindow_of_mem (a := .read off size) h0 h64) hread (s.setInputs rest)
    exact (step_cons hin).trans (runCycle_access (by rw [accessBlock_read, hzero]; rfl))

/-- Settles O12: an admitted read is the register's word, and each word is its fields. -/
theorem admittedReadValues : Obligations.AdmittedReadValues := by
  intro s
  have hstatus := statusWord_getLsbD s
  refine ⟨fun off h64 h4 => accessBlock_read_aligned h64 h4 s, rfl, rfl, rfl, ?_, configWord_toNat s,
    cmpWord_toNat s.chA, cmpWord_toNat s.chB, counterWord_toNat s, fun off _ h => regRead_unreadable h s⟩
  refine ⟨statusWord_lt s, ?_, hstatus 1, hstatus 2, hstatus 3, hstatus 4, hstatus 5, hstatus 6, hstatus 7, hstatus 8, ?_⟩
  · exact (Bool.eq_iff_iff.mp (hstatus 0)).trans runBit_eq_true
  · exact (Bool.eq_iff_iff.mp (hstatus 9)).trans configured_eq_true

/-- Settles O6: the lane is the register's own, and its bits are those from `8k` on. -/
theorem byteLanesAreLittleEndian : Obligations.ByteLanesAreLittleEndian := by
  intro s off k i h4 hk hi
  rw [laneByte_add s h4 hk, byteLane_getLsbD _ k hi]

/-- Settles O11: an admitted write is the register write at its offset, and only four offsets have one. -/
theorem admittedWriteEffects : Obligations.AdmittedWriteEffects := by
  intro s v
  have hbus {off : Nat} (h64 : off < 64) (h4 : off % 4 = 0) := accessBlock_write_aligned h64 h4 v s
  refine ⟨hbus (off := 0x00) (by decide) rfl, hbus (off := 0x04) (by decide) rfl, hbus (off := 0x08) (by decide) rfl,
    fun hv => ?_, fun hv => ?_, fun off h64 h4 h0 h4' h8 h24 => ?_⟩
  · exact (hbus (off := 0x24) (by decide) rfl).trans (busWrite_ack_set hv _)
  · exact (hbus (off := 0x24) (by decide) rfl).trans (busWrite_ack_clear hv _)
  · exact (hbus h64 h4).trans (busWrite_other h0 h4' h8 h24 v _)

end Sys2Proof.Machine
end

section
/-! SUPPORT. The decoder as a whole (R68, R70): the command a word encodes has the word's opcode and operands, and the words of a
reserved opcode encode none. With it the encoder's words (R65, R72). -/

namespace Sys2Proof

/-! The opcode field -/

/-- The opcode field is the word's low four bits (R65, R66). -/
theorem toNat_and_0xF (w : Word) : (w &&& 0xF).toNat = (fieldOp w).toNat := by
  rw [fieldOp, BitVec.extractLsb'_toNat, Nat.shiftRight_zero]
  exact Nat.and_two_pow_sub_one_eq_mod w.toNat 4

/-- The eleven opcodes of the map are 1 to 11 (R68). -/
theorem opcode_bounds (i : Instr) : 1 ≤ (opcode i).toNat ∧ (opcode i).toNat ≤ 11 := by
  cases i <;> simp [opcode]

theorem fieldOp_encode (i : Instr) : fieldOp (encode i) = opcode i := by
  cases i <;> exact fieldOp_formatC _ _ _ _

/-! The operands -/

/-- The operands of a command are the fields its opcode reads in a word (R66, R68). -/
def Instr.OperandsFrom (w : Word) : Instr → Prop
  | .pwm p ch duty => p = fieldP w ∧ ch = fieldCh w ∧ duty = fieldDuty w
  | .setduty ch duty => ch = fieldCh w ∧ duty = fieldDuty w
  | .dispwm ch => ch = fieldCh w
  | .attach p => p = fieldP w
  | .init | .setperiod | .start | .stop | .restart | .resume | .detach => True

theorem wellFormed_pwm {p : Bool} {ch duty : Nat} :
    (Instr.pwm p ch duty).wellFormed = true ↔ ch < 4 ∧ duty < 2048 := by
  simp only [Instr.wellFormed, chFits, dutyFits, Bool.and_eq_true, decide_eq_true_eq]

theorem wellFormed_setduty {ch duty : Nat} : (Instr.setduty ch duty).wellFormed = true ↔ ch < 4 ∧ duty < 2048 :=
  wellFormed_pwm (p := false)

theorem wellFormed_dispwm {ch : Nat} : (Instr.dispwm ch).wellFormed = true ↔ ch < 4 := decide_eq_true_iff

theorem fieldCh_lt (w : Word) : fieldCh w < 4 := BitVec.isLt _

theorem fieldDuty_lt (w : Word) : fieldDuty w < 2048 := BitVec.isLt _

/-- Operands read from a word fit their fields (R65, R72). -/
theorem Instr.OperandsFrom.wellFormed {w : Word} {i : Instr} (h : i.OperandsFrom w) : i.wellFormed = true := by
  cases i with
  | pwm p ch duty =>
    obtain ⟨-, rfl, rfl⟩ := h
    exact wellFormed_pwm.mpr ⟨fieldCh_lt w, fieldDuty_lt w⟩
  | setduty ch duty =>
    obtain ⟨rfl, rfl⟩ := h
    exact wellFormed_setduty.mpr ⟨fieldCh_lt w, fieldDuty_lt w⟩
  | dispwm ch =>
    obtain rfl := h
    exact wellFormed_dispwm.mpr (fieldCh_lt w)
  | init | setperiod | start | stop | restart | resume | attach p | detach => rfl

theorem fieldCh_formatC_of_lt {ch : Nat} (h : ch < 4) (op : BitVec 4) (p : Bool) (duty : Nat) :
    fieldCh (formatC op p ch duty) = ch := by
  rw [fieldCh_formatC, Nat.mod_eq_of_lt h]

theorem fieldDuty_formatC_of_lt {duty : Nat} (h : duty < 2048) (op : BitVec 4) (p : Bool) (ch : Nat) :
    fieldDuty (formatC op p ch duty) = duty := by
  rw [fieldDuty_formatC, Nat.mod_eq_of_lt h]

/-- The word of a well-formed command holds its operands (R65, R72). -/
theorem operandsFrom_encode {i : Instr} (h : i.wellFormed = true) : i.OperandsFrom (encode i) := by
  cases i with
  | pwm p ch duty =>
    obtain ⟨hch, hduty⟩ := wellFormed_pwm.mp h
    exact ⟨(fieldP_formatC _ _ _ _).symm, (fieldCh_formatC_of_lt hch _ _ _).symm, (fieldDuty_formatC_of_lt hduty _ _ _).symm⟩
  | setduty ch duty =>
    obtain ⟨hch, hduty⟩ := wellFormed_setduty.mp h
    exact ⟨(fieldCh_formatC_of_lt hch _ _ _).symm, (fieldDuty_formatC_of_lt hduty _ _ _).symm⟩
  | dispwm ch => exact (fieldCh_formatC_of_lt (wellFormed_dispwm.mp h) _ _ _).symm
  | attach p => exact (fieldP_formatC _ _ _ _).symm
  | init | setperiod | start | stop | restart | resume | detach => trivial

/-! The decoder -/

/-- What the decoder makes of a word: the command of its opcode with the word's operands, or a rejection of its reserved
opcode (R68, R70). -/
theorem decodeWord_cases (w : Word) :
    (∃ i, decodeWord w = .ok i ∧ opcode i = fieldOp w ∧ i.OperandsFrom w) ∨
      (decodeWord w = .error (.reserved (fieldOp w)) ∧ ((fieldOp w).toNat = 0 ∨ 12 ≤ (fieldOp w).toNat)) := by
  unfold decodeWord
  split
  case h_12 =>
    simp only [imp_false] at * -- `omega` reads `¬ p`, not `p → False`
    exact .inr ⟨trivial, by omega⟩
  all_goals
    next hop => exact .inl ⟨_, rfl, BitVec.eq_of_toNat_eq hop.symm, by simp only [Instr.OperandsFrom, and_self]⟩

/-- A word with a command's opcode and operands decodes to that command (R68). -/
theorem decodeWord_of_fields {w : Word} {i : Instr} (hop : fieldOp w = opcode i) (h : i.OperandsFrom w) :
    decodeWord w = .ok i := by
  cases i with
  | pwm p ch duty =>
    obtain ⟨rfl, rfl, rfl⟩ := h
    rw [decodeWord, hop]; rfl
  | setduty ch duty =>
    obtain ⟨rfl, rfl⟩ := h
    rw [decodeWord, hop]; rfl
  | dispwm ch =>
    obtain rfl := h
    rw [decodeWord, hop]; rfl
  | attach p =>
    obtain rfl := h
    rw [decodeWord, hop]; rfl
  | init | setperiod | start | stop | restart | resume | detach => rw [decodeWord, hop]; rfl

/-- A reserved opcode is rejected by name (R70). -/
theorem decodeWord_reserved {w : Word} (h : (fieldOp w).toNat = 0 ∨ 12 ≤ (fieldOp w).toNat) :
    decodeWord w = .error (.reserved (fieldOp w)) := by
  obtain ⟨i, -, hop, -⟩ | ⟨hd, -⟩ := decodeWord_cases w
  · have hi := opcode_bounds i
    rw [hop] at hi
    omega
  · exact hd

/-- The decoder undoes the encoder on well-formed commands (R72). -/
theorem decodeWord_encode {i : Instr} (h : i.wellFormed = true) : decodeWord (encode i) = .ok i :=
  decodeWord_of_fields (fieldOp_encode i) (operandsFrom_encode h)

/-! The encoder's words -/

/-- Format `C` with operands that fit: each field at its place (R65). -/
theorem formatC_eq_or {ch duty : Nat} (hch : ch < 4) (hduty : duty < 2048) (op : BitVec 4) (p : Bool) :
    formatC op p ch duty =
      op.setWidth 32 ||| (BitVec.ofBool p).setWidth 32 <<< 4 ||| BitVec.ofNat 32 ch <<< 5 ||| BitVec.ofNat 32 duty <<< 8 := by
  have hch' : (BitVec.ofNat 2 ch).setWidth 32 = BitVec.ofNat 32 ch := BitVec.setWidth_ofNat_of_le_of_lt (by decide) hch
  have hduty' : (BitVec.ofNat 11 duty).setWidth 32 = BitVec.ofNat 32 duty :=
    BitVec.setWidth_ofNat_of_le_of_lt (by decide) hduty
  rw [← BitVec.setWidth_eq (formatC op p ch duty), formatC]
  simp only [BitVec.setWidth_append_eq_shiftLeft_setWidth_or, BitVec.shiftLeft_or_distrib, ← BitVec.shiftLeft_add, hch', hduty',
    BitVec.setWidth_zero, BitVec.zero_shiftLeft, BitVec.zero_or, BitVec.or_zero]
  ac_rfl

end Sys2Proof
end

section
/-! SUPPORT. The bits a command uses (R71), the commit of a reserved command (R70), and the statements about the encoding. -/

namespace Sys2Proof.Machine

/-! The bits a command uses -/

/-- Masking a word keeps the opcode where the mask does (R68). -/
theorem fieldOp_and_mask {w m : Word} (h : fieldOp m = 15) : fieldOp (w &&& m) = fieldOp w := by
  have hand : fieldOp (w &&& m) = fieldOp w &&& fieldOp m := BitVec.extractLsb'_and
  rw [hand, h]
  exact BitVec.and_allOnes

theorem fieldP_and_mask {w m : Word} (h : fieldP m = true) : fieldP (w &&& m) = fieldP w := by
  have hand : fieldP (w &&& m) = (fieldP w && fieldP m) := BitVec.getLsbD_and
  rw [hand, h, Bool.and_true]

theorem fieldCh_and_mask {w m : Word} (h : fieldCh m = 3) : fieldCh (w &&& m) = fieldCh w := by
  have hand : fieldCh (w &&& m) = fieldCh w &&& fieldCh m := by
    rw [fieldCh, BitVec.extractLsb'_and, BitVec.toNat_and]; rfl
  rw [hand, h]
  exact (Nat.and_two_pow_sub_one_eq_mod _ 2).trans (Nat.mod_eq_of_lt (fieldCh_lt w))

theorem fieldDuty_and_mask {w m : Word} (h : fieldDuty m = 2047) : fieldDuty (w &&& m) = fieldDuty w := by
  have hand : fieldDuty (w &&& m) = fieldDuty w &&& fieldDuty m := by
    rw [fieldDuty, BitVec.extractLsb'_and, BitVec.toNat_and]; rfl
  rw [hand, h]
  exact (Nat.and_two_pow_sub_one_eq_mod _ 11).trans (Nat.mod_eq_of_lt (fieldDuty_lt w))

/-- Every command uses its opcode (R68). -/
theorem fieldOp_and_usedBits (w : Word) : fieldOp (w &&& usedBits w) = fieldOp w := by
  refine fieldOp_and_mask ?_
  unfold usedBits
  split <;> rfl

/-- Every command uses its operands' fields (R68, R71). -/
theorem operandsFrom_and_usedBits {w : Word} {i : Instr} (hop : opcode i = fieldOp w) (h : i.OperandsFrom w) :
    i.OperandsFrom (w &&& usedBits w) := by
  cases i with
  | pwm p ch duty =>
    have hmask : usedBits w = 0x0007FF7F := by rw [usedBits, ← hop]; rfl
    obtain ⟨hp, hch, hduty⟩ := h
    rw [hmask]
    exact ⟨hp.trans (fieldP_and_mask rfl).symm, hch.trans (fieldCh_and_mask rfl).symm,
      hduty.trans (fieldDuty_and_mask rfl).symm⟩
  | setduty ch duty =>
    have hmask : usedBits w = 0x0007FF6F := by rw [usedBits, ← hop]; rfl
    obtain ⟨hch, hduty⟩ := h
    rw [hmask]
    exact ⟨hch.trans (fieldCh_and_mask rfl).symm, hduty.trans (fieldDuty_and_mask rfl).symm⟩
  | dispwm ch =>
    have hmask : usedBits w = 0x0000006F := by rw [usedBits, ← hop]; rfl
    rw [hmask]
    exact h.trans (fieldCh_and_mask rfl).symm
  | attach p =>
    have hmask : usedBits w = 0x0000001F := by rw [usedBits, ← hop]; rfl
    rw [hmask]
    exact h.trans (fieldP_and_mask rfl).symm
  | init | setperiod | start | stop | restart | resume | detach => trivial

/-- The bits a command ignores do not change what its word decodes to (R71). -/
theorem decodeWord_and_usedBits (w : Word) : decodeWord (w &&& usedBits w) = decodeWord w := by
  have hkeep := fieldOp_and_usedBits w
  obtain ⟨i, hd, hop, hi⟩ | ⟨hd, hres⟩ := decodeWord_cases w
  · rw [hd]
    exact decodeWord_of_fields (hkeep.trans hop.symm) (operandsFrom_and_usedBits hop hi)
  · rw [hd, ← hkeep]
    exact decodeWord_reserved (by rwa [hkeep])

/-! A reserved command -/

/-- A reserved command does nothing (R70). -/
theorem executeCommand_reserved {w : Word} (h : (fieldOp w).toNat = 0 ∨ 12 ≤ (fieldOp w).toNat) (s : State) :
    executeCommand w s = .next s := by
  rw [executeCommand, decodeWord_reserved h]

/-! The statements -/

/-- Settles O2: the command's word has its opcode and its operands, and the lanes of a word put together are the word. -/
theorem decodeOfEncodeIsTheCommand : Obligations.DecodeOfEncodeIsTheCommand := by
  intro i rest h
  have hd := decodeWord_encode h
  exact ⟨hd, by rw [encodeBytes, decodeBytes_lanes, hd]; rfl⟩

/-- Settles O3: a decoded command has the word's opcode, which is one of 1 to 11; a rejected word has a reserved one. -/
theorem decoderFollowsTheOpcodeMap : Obligations.DecoderFollowsTheOpcodeMap := by
  intro w
  rw [toNat_and_0xF]
  obtain ⟨i, hd, hop, hi⟩ | ⟨hd, hres⟩ := decodeWord_cases w
  · refine ⟨fun _ => ⟨i, hd, hi.wellFormed, congrArg BitVec.toNat hop⟩, fun hout => absurd ?_ hout⟩
    exact hop ▸ opcode_bounds i
  · exact ⟨fun hin => by omega, fun _ => ⟨fieldOp w, rfl, hd⟩⟩

/-- Settles O4: the word with its ignored bits zero decodes alike, and a word executes as it decodes. -/
theorem ignoredBitsDoNotMatter : Obligations.IgnoredBitsDoNotMatter := by
  intro w s
  have hd := decodeWord_and_usedBits w
  exact ⟨hd.symm, by rw [executeCommand, executeCommand, hd]⟩

/-- Settles O8: the reserved word is rejected by the decoder, so its `CMD` write leaves the state to the clock. -/
theorem reservedCommandHasNoEffect : Obligations.ReservedCommandHasNoEffect := by
  intro s w rest hin hres
  have haccess := (accessBlock_write_aligned (off := 0) (by decide) rfl w (s.setInputs rest)).trans
    (executeCommand_reserved hres _)
  exact ⟨executeCommand_reserved hres s, (step_cons hin).trans (runCycle_access haccess)⟩

/-- Settles O1: each word is evaluated; channel 2 names no channel. -/
theorem writtenWordsDecode : Obligations.WrittenWordsDecode := by
  refine ⟨by decide, by decide, by decide, by decide, by decide, by decide, by decide, fun s => ?_, by decide, by decide⟩
  exact exec_setduty_none rfl 512 s

/-- Settles O5: a word is its fields at their places, and the fields are as wide as the assembler allows. -/
theorem assemblerWordsAreAsListed : Obligations.AssemblerWordsAreAsListed := by
  refine ⟨by decide, by decide, by decide, by decide, by decide, by decide, by decide, by decide, by decide,
    fun ch duty hch hduty => ?_, fun p ch duty => ?_, rfl, rfl⟩
  · have hword := formatC_eq_or (Nat.lt_succ_of_le hch) (Nat.lt_succ_of_le hduty)
    have hdispwm := formatC_eq_or (Nat.lt_succ_of_le hch) (duty := 0) (by decide) 9 false
    exact ⟨hword 7 false, hword 7 true, hword 8 false, hdispwm.trans BitVec.or_zero⟩
  · simp only [wellFormed_pwm, wellFormed_setduty, wellFormed_dispwm, Nat.lt_succ_iff, and_self]

/-- Settles O25: a channel operand of 2 or more names no channel. -/
theorem unrecognizedChannelHasNoEffect : Obligations.UnrecognizedChannelHasNoEffect := by
  intro s p ch duty h
  have hnone := channelOf_eq_none.mpr h
  exact ⟨exec_pwm_none hnone p duty s, exec_setduty_none hnone duty s, exec_dispwm_none hnone s⟩

end Sys2Proof.Machine
end

section
/-! SUPPORT. The period calculator (R76 to R88): it selects the smallest divisor whose quotient fits, and clamps where none
does. Every other rule of it follows from that. -/

namespace Sys2Proof.Machine

/-! Selectors and their divisors -/

theorem code_inj {c d : Psel} (h : c.code.toNat = d.code.toNat) : c = d := by
  cases c <;> cases d <;> simp [Psel.code] at h ⊢

theorem code_le_five (c : Psel) : c.code.toNat ≤ 5 := by cases c <;> decide

/-- A selector with a divisor has a code of at least 1 (R17, R18). -/
theorem one_le_code {c : Psel} {n : Nat} (h : c.div? = some n) : 1 ≤ c.code.toNat := by
  cases c with
  | none => cases h
  | div1 | div8 | div64 | div256 | div1024 => decide

/-- Divisors grow with their codes (R18). -/
theorem div?_mono {c d : Psel} {n m : Nat} (hc : c.div? = some n) (hd : d.div? = some m)
    (h : c.code.toNat ≤ d.code.toNat) : n ≤ m := by
  cases c <;> cases hc <;> cases d <;> cases hd <;> revert h <;> decide

/-- The calculator tries exactly the selectors that have a divisor (R77). -/
theorem mem_prescalers {c : Psel} {n : Nat} : (c, n) ∈ prescalers ↔ c.div? = some n := by
  cases c <;> simp [prescalers, Psel.div?, eq_comm]

/-- It tries them in the order of their codes (R77). -/
theorem prescalers_sorted : prescalers.Pairwise fun p q => p.1.code.toNat ≤ q.1.code.toNat := by decide

/-! The search -/

/-- Where some divisor of the list fits, the search ends at the first that does, with its quotient (R77). -/
theorem firstFit_of_fit {cy : Nat} {l : List (Psel × Nat)}
    (hsorted : l.Pairwise fun p q => p.1.code.toNat ≤ q.1.code.toNat) (hfit : ∃ p ∈ l, cy / p.2 < 65536) :
    ∃ n, ((firstFit cy l).1, n) ∈ l ∧ cy / n < 65536 ∧ (firstFit cy l).2 = BitVec.ofNat 16 (cy / n) ∧
      ∀ q ∈ l, cy / q.2 < 65536 → (firstFit cy l).1.code.toNat ≤ q.1.code.toNat := by
  induction l with
  | nil => simp at hfit
  | cons p rest ih =>
    obtain ⟨hhead, htail⟩ := List.pairwise_cons.mp hsorted
    rw [firstFit]
    split
    case isTrue hp =>
      refine ⟨p.2, List.mem_cons_self, hp, rfl, ?_⟩
      rintro q hq -
      obtain rfl | hq := List.mem_cons.mp hq
      · exact le_rfl
      · exact hhead q hq
    case isFalse hp =>
      obtain ⟨n, hmem, hn, hr, hmin⟩ := ih htail (by simpa [hp] using hfit)
      refine ⟨n, List.mem_cons_of_mem _ hmem, hn, hr, fun q hq hqfit => ?_⟩
      obtain rfl | hq := List.mem_cons.mp hq
      · exact absurd hqfit hp
      · exact hmin q hq hqfit

/-- Where none fits, the search ends in the clamp (R77). -/
theorem firstFit_of_unfit {cy : Nat} {l : List (Psel × Nat)} (h : ∀ p ∈ l, ¬ cy / p.2 < 65536) :
    firstFit cy l = (.div1024, 65535) := by
  induction l with
  | nil => rfl
  | cons p rest ih =>
    rw [firstFit, if_neg (h p List.mem_cons_self)]
    exact ih fun q hq => h q (List.mem_cons_of_mem _ hq)

/-! The calculator -/

/-- A quotient fits exactly if the dividend is below 65536 divisors (R83). -/
theorem quotient_fits_iff {c : Psel} {n : Nat} (h : c.div? = some n) (cy : Nat) : cy / n < 65536 ↔ cy < 65536 * n :=
  Nat.div_lt_iff_lt_mul (div?_bounds h).1

section
variable {clk us : Nat}

/-- Below the clamp the calculator selects the smallest code whose quotient fits, with that quotient (R83). -/
theorem periodConfig_unclamped (h : cycles clk us < 67108864) :
    ∃ n, (periodConfig clk us).1.div? = some n ∧ cycles clk us / n < 65536 ∧
      (periodConfig clk us).2.toNat = cycles clk us / n ∧
      ∀ (c : Psel) (m : Nat), c.div? = some m → cycles clk us / m < 65536 →
        (periodConfig clk us).1.code.toNat ≤ c.code.toNat := by
  have hfit : ∃ p ∈ prescalers, cycles clk us / p.2 < 65536 :=
    ⟨(.div1024, 1024), mem_prescalers.mpr rfl, (quotient_fits_iff (c := .div1024) rfl _).mpr h⟩
  obtain ⟨n, hmem, hn, hr, hmin⟩ := firstFit_of_fit prescalers_sorted hfit
  refine ⟨n, mem_prescalers.mp hmem, hn, ?_, fun c m hc hm => hmin (c, m) (mem_prescalers.mpr hc) hm⟩
  rw [periodConfig, hr, BitVec.toNat_ofNat, Nat.mod_eq_of_lt hn]

/-- From 65536 times the largest divisor on, the calculator clamps (R85). -/
theorem periodConfig_clamped (h : 67108864 ≤ cycles clk us) : periodConfig clk us = (.div1024, 65535) := by
  refine firstFit_of_unfit fun ⟨c, n⟩ hp hfit => ?_
  have hc := mem_prescalers.mp hp
  have hlt := (quotient_fits_iff hc _).mp hfit
  have hle := (div?_bounds hc).2
  omega

/-- A selector whose quotient fits, where that of no smaller code does, is the one selected (R83). -/
theorem periodConfig_of_smallest {c : Psel} {n : Nat} (hc : c.div? = some n) (hfit : cycles clk us < 65536 * n)
    (hsmaller : ∀ (d : Psel) (m : Nat), d.div? = some m → d.code.toNat < c.code.toNat → 65536 * m ≤ cycles clk us) :
    (periodConfig clk us).1 = c ∧ (periodConfig clk us).2.toNat = cycles clk us / n := by
  have hclamp : cycles clk us < 67108864 := by have := (div?_bounds hc).2; omega
  obtain ⟨m, hm, hmfit, hr, hmin⟩ := periodConfig_unclamped hclamp
  have hle := hmin c n hc ((quotient_fits_iff hc _).mpr hfit)
  have hge : c.code.toNat ≤ (periodConfig clk us).1.code.toNat :=
    Nat.le_of_not_lt fun hlt =>
      Nat.not_lt_of_le (hsmaller _ _ hm hlt) ((quotient_fits_iff hm _).mp hmfit)
  have hsel : (periodConfig clk us).1 = c := code_inj (le_antisymm hle hge)
  obtain rfl : m = n := Option.some.inj (hm.symm.trans ((congrArg _ hsel).trans hc))
  exact ⟨hsel, hr⟩

/-- A request whose cycles fit sixteen bits gets divisor 1 (R82). -/
theorem periodConfig_of_lt (h : cycles clk us < 65536) :
    (periodConfig clk us).1 = .div1 ∧ (periodConfig clk us).2.toNat = cycles clk us := by
  have hnone (d : Psel) (m : Nat) (hd : d.div? = some m) (hlt : d.code.toNat < 1) : 65536 * m ≤ cycles clk us :=
    absurd (one_le_code hd) (Nat.not_le_of_lt hlt)
  simpa using periodConfig_of_smallest (c := .div1) rfl (by omega) hnone

/-- Between 65536 times one divisor and 65536 times the next, the next one is selected (R83). -/
theorem periodConfig_of_range {b c : Psel} {m n : Nat} (hb : b.div? = some m) (hc : c.div? = some n)
    (hnext : c.code.toNat = b.code.toNat + 1) (hlow : 65536 * m ≤ cycles clk us) (hhigh : cycles clk us < 65536 * n) :
    (periodConfig clk us).1 = c ∧ (periodConfig clk us).2.toNat = cycles clk us / n := by
  refine periodConfig_of_smallest hc hhigh fun d k hd hlt => ?_
  have hk : k ≤ m := div?_mono hd hb (by omega)
  omega

end

/-- `cycles` is the truncated quotient by 2,000,000 (R76). -/
theorem cycles_bounds (clk us : Nat) :
    cycles clk us * 2000000 ≤ clk * us ∧ clk * us < (cycles clk us + 1) * 2000000 := by
  rw [cycles]; omega

/-- A longer request takes no fewer cycles (R76). -/
theorem cycles_mono (clk : Nat) {us1 us2 : Nat} (h : us1 ≤ us2) : cycles clk us1 ≤ cycles clk us2 :=
  Nat.div_le_div_right (Nat.mul_le_mul_left clk h)

/-- The divisor of a longer request fits a shorter one too, so the shorter one's code is no larger (R84). -/
theorem periodConfig_code_mono (clk : Nat) {us1 us2 : Nat} (h : us1 ≤ us2) :
    (periodConfig clk us1).1.code.toNat ≤ (periodConfig clk us2).1.code.toNat := by
  have hcy := cycles_mono clk h
  obtain hlt | hge := lt_or_ge (cycles clk us2) 67108864
  · obtain ⟨n, hn, hfit, -, -⟩ := periodConfig_unclamped hlt
    obtain ⟨-, -, -, -, hmin⟩ := periodConfig_unclamped (hcy.trans_lt hlt)
    exact hmin _ n hn ((Nat.div_le_div_right hcy).trans_lt hfit)
  · rw [periodConfig_clamped hge]
    exact code_le_five _

/-- Within one code the quotients are in order, and none is above the clamp (R84). -/
theorem periodConfig_reload_mono (clk : Nat) {us1 us2 : Nat} (h : us1 ≤ us2)
    (hsel : (periodConfig clk us1).1 = (periodConfig clk us2).1) :
    (periodConfig clk us1).2.toNat ≤ (periodConfig clk us2).2.toNat := by
  have hcy := cycles_mono clk h
  obtain hlt | hge := lt_or_ge (cycles clk us2) 67108864
  · obtain ⟨n, hn, -, hr2, -⟩ := periodConfig_unclamped hlt
    obtain ⟨m, hm, -, hr1, -⟩ := periodConfig_unclamped (hcy.trans_lt hlt)
    obtain rfl : m = n := Option.some.inj (hm.symm.trans ((congrArg _ hsel).trans hn))
    rw [hr1, hr2]
    exact Nat.div_le_div_right hcy
  · rw [periodConfig_clamped hge]
    exact Nat.le_of_lt_succ (periodConfig clk us1).2.isLt

/-- The realised half period is the quotient times the divisor: at most the request, and less than one divisor short (R87). -/
theorem realised_bounds {clk us n : Nat} (hn : (periodConfig clk us).1.div? = some n) (h : cycles clk us < 67108864) :
    (periodConfig clk us).2.toNat * n ≤ cycles clk us ∧ cycles clk us < (periodConfig clk us).2.toNat * n + n := by
  obtain ⟨m, hm, -, hr, -⟩ := periodConfig_unclamped h
  obtain rfl : m = n := Option.some.inj (hm.symm.trans hn)
  rw [hr]
  exact ⟨Nat.div_mul_le_self _ _, Nat.lt_div_mul_add (div?_bounds hm).1⟩

/-! At 16 MHz (R88) -/

/-- A microsecond is eight cycles of a half period. -/
theorem cycles_at_16MHz (us : Nat) : cycles 16000000 us = 8 * us := by rw [cycles]; omega

/-- Requests between 8192 times one divisor and 8192 times the next get the next one. -/
theorem periodConfig_at_16MHz {us : Nat} {b c : Psel} {m n : Nat} (hb : b.div? = some m) (hc : c.div? = some n)
    (hnext : c.code.toNat = b.code.toNat + 1) (hlow : 8192 * m ≤ us) (hhigh : us < 8192 * n) :
    (periodConfig 16000000 us).1.code = c.code ∧ (periodConfig 16000000 us).2.toNat = 8 * us / n := by
  have hcy := cycles_at_16MHz us
  obtain ⟨hsel, hr⟩ := periodConfig_of_range (clk := 16000000) (us := us) hb hc hnext (by omega) (by omega)
  exact ⟨congrArg Psel.code hsel, by rw [hr, hcy]⟩

/-! The statements -/

/-- Settles O17: `SETPERIOD` is `apply_period` and nothing else. -/
theorem setperiodAppliesThePeriod : Obligations.SetperiodAppliesThePeriod :=
  fun s => ⟨s.applyPeriod, rfl, applyPeriod_periodApplied s⟩

/-- Settles O29: the second request finds the selector it asks for. -/
theorem samePeriodTwiceIsIdempotent : Obligations.SamePeriodTwiceIsIdempotent := by
  intro s
  refine ⟨⟨s.applyPeriod, rfl, ?_⟩, ⟨_, _, rfl, rfl, rfl, rfl⟩⟩
  exact congrArg Host.Outcome.next (applyPeriod_applyPeriod s)

/-- Settles O16: a selected code has a divisor, and the code 0 has none. -/
theorem initConfiguresAndStops : Obligations.InitConfiguresAndStops := by
  intro s
  obtain ⟨n, hn⟩ := periodConfig_div? s.cfg.clkHz s.argPeriod.toNat
  refine ⟨fun hnone => ?_, _, _, _, rfl⟩
  rw [hnone] at hn
  cases hn

/-- Settles O41: the product of two numbers below `2^32` needs no more than 64 bits. -/
theorem cyclesFitSixtyFourBits : Obligations.CyclesFitSixtyFourBits := by
  intro clk us hclk hus
  have hprod : clk * us < 2 ^ 64 := (Nat.mul_lt_mul'' hclk hus).trans_eq (by norm_num)
  refine ⟨hprod, ?_, cycles_bounds clk us⟩
  rw [BitVec.toNat_udiv, ← BitVec.ofNat_mul, BitVec.toNat_ofNat, Nat.mod_eq_of_lt hprod]
  rfl

/-- Settles O42: the smallest divisor, and the clamp. -/
theorem calculatorEndsOfTheRange : Obligations.CalculatorEndsOfTheRange :=
  fun _ _ => ⟨periodConfig_of_lt, periodConfig_clamped⟩

/-- Settles O43: the search in the order of the codes. -/
theorem calculatorTakesTheSmallestDivisor : Obligations.CalculatorTakesTheSmallestDivisor := by
  refine fun clk us => ⟨periodConfig_unclamped, fun h => ?_, fun c m hc => quotient_fits_iff hc _⟩
  rw [periodConfig_clamped h]
  exact ⟨rfl, rfl⟩

/-- Settles O44: codes and, within one code, reload values are in order. -/
theorem calculatorIsMonotone : Obligations.CalculatorIsMonotone :=
  fun clk _ _ h => ⟨periodConfig_code_mono clk h, periodConfig_reload_mono clk h⟩

/-- Settles O45: each range of requests is the one between 8192 times one divisor and 8192 times the next. -/
theorem calculatorRangesAtSixteenMegahertz : Obligations.CalculatorRangesAtSixteenMegahertz := by
  intro us _
  have hcy := cycles_at_16MHz us
  refine ⟨hcy, fun h => ?_, fun hlow h => ?_, fun hlow h => ?_, fun hlow h => ?_, fun hlow h => ?_, fun h => ?_⟩
  · obtain ⟨hc, hr⟩ := periodConfig_of_lt (clk := 16000000) (us := us) (by omega)
    exact ⟨congrArg Psel.code hc, hr.trans hcy⟩
  · exact (periodConfig_at_16MHz (b := .div1) (c := .div8) rfl rfl rfl hlow (by omega)).imp_right fun hr => by omega
  · exact (periodConfig_at_16MHz (b := .div8) (c := .div64) rfl rfl rfl hlow (by omega)).imp_right fun hr => by omega
  · exact (periodConfig_at_16MHz (b := .div64) (c := .div256) rfl rfl rfl hlow (by omega)).imp_right fun hr => by omega
  · exact (periodConfig_at_16MHz (b := .div256) (c := .div1024) rfl rfl rfl hlow (by omega)).imp_right fun hr => by omega
  · rw [periodConfig_clamped (by omega)]
    exact ⟨rfl, rfl⟩

end Sys2Proof.Machine
end

section
/-! SUPPORT. A counting cycle in ticks: up from 0 to `RELOAD` and down to 0 again, with the overflow event at its end (R111,
R113). The counter is written as a number `k`. -/

namespace Sys2Proof.Machine

/-! One tick -/

theorem toNat_half {k : Nat} (h : k < 65536) : (BitVec.ofNat 16 k).toNat = k := by
  rw [BitVec.toNat_ofNat, Nat.mod_eq_of_lt h]

theorem half_sub_one {k : Nat} (h : 1 ≤ k) : BitVec.ofNat 16 k - 1 = BitVec.ofNat 16 (k - 1) :=
  BitVec.ofNat_sub_ofNat_of_le k 1 (by decide) h

theorem reload_ne_zero {s : State} (h : 1 ≤ s.reload.toNat) : s.reload ≠ 0 := fun e => by simp [e] at h

/-- Below `RELOAD` the counter counts up. -/
theorem tick_at_up {s : State} {k : Nat} (h : k < s.reload.toNat) :
    (s.setCounter (BitVec.ofNat 16 k) .up).tick = s.setCounter (BitVec.ofNat 16 (k + 1)) .up := by
  have hlt := s.reload.isLt
  have hbelow : BitVec.ofNat 16 k < s.reload := by rwa [BitVec.lt_def, toNat_half (by omega)]
  rw [tick_up (reload_ne_zero (by rw [setCounter_reload]; omega)) rfl hbelow, BitVec.ofNat_add]
  rfl

/-- At `RELOAD` it turns and counts down. -/
theorem tick_at_turn {s : State} (h : 2 ≤ s.reload.toNat) :
    (s.setCounter s.reload .up).tick = s.setCounter (BitVec.ofNat 16 (s.reload.toNat - 1)) .down := by
  have hlt := s.reload.isLt
  have hsub : s.reload - 1 = BitVec.ofNat 16 (s.reload.toNat - 1) := by
    rw [← half_sub_one (by omega), BitVec.ofNat_toNat, BitVec.setWidth_eq]
  have hne : s.reload - 1 ≠ 0 := fun e => by
    have hz : s.reload.toNat - 1 = 0 := by rw [← toNat_half (k := s.reload.toNat - 1) (by omega), ← hsub, e]; rfl
    omega
  rw [tick_turn (reload_ne_zero (by rw [setCounter_reload]; omega)) rfl (BitVec.lt_irrefl _) hne, setCounter_cnt, hsub]
  rfl

/-- Above 1 it counts down. -/
theorem tick_at_down {s : State} {k : Nat} (hr : 1 ≤ s.reload.toNat) (h : 2 ≤ k) (hk : k < 65536) :
    (s.setCounter (BitVec.ofNat 16 k) .down).tick = s.setCounter (BitVec.ofNat 16 (k - 1)) .down := by
  have habove : ¬ BitVec.ofNat 16 k ≤ 1 := by
    rw [BitVec.le_def, toNat_half hk]
    exact Nat.not_le_of_lt h
  rw [tick_down (reload_ne_zero (by rwa [setCounter_reload])) rfl habove, setCounter_cnt, half_sub_one (by omega)]
  rfl

/-- At 1 the counting cycle ends, on the way down or at a turn there. -/
theorem tick_at_end {s : State} {d : Dir} (hr : 1 ≤ s.reload.toNat) (hd : d = .up → s.reload = 1) :
    (s.setCounter 1 d).tick = (s.setCounter 0 .up).setOvf true := by
  have hreload : (s.setCounter 1 d).reload ≠ 0 := reload_ne_zero hr
  cases d with
  | up =>
    have hturn : ¬ (1 : Half) < s.reload := by rw [hd rfl]; decide
    exact tick_turn_zero hreload rfl hturn (sub_self (1 : Half))
  | down => exact tick_down_zero hreload rfl (BitVec.le_refl _)

/-! The whole cycle -/

section
variable {s : State} (hcnt : s.cnt = 0) (hdir : s.dir = .up)
include hcnt hdir

theorem setCounter_zero_up : s.setCounter 0 .up = s := by
  rw [← hcnt, ← hdir]; rfl

/-- The first `RELOAD` ticks count up (R113). -/
theorem tick_iterate_up {k : Nat} (hk : k ≤ s.reload.toNat) :
    State.tick^[k] s = s.setCounter (BitVec.ofNat 16 k) .up := by
  induction k with
  | zero => exact (setCounter_zero_up hcnt hdir).symm
  | succ k ih => rw [Function.iterate_succ_apply', ih (Nat.le_of_lt hk), tick_at_up hk]

/-- The ticks after them count down, all but the last (R113). -/
theorem tick_iterate_down {j : Nat} (h1 : 1 ≤ j) (hj : j < s.reload.toNat) :
    State.tick^[s.reload.toNat + j] s = s.setCounter (BitVec.ofNat 16 (s.reload.toNat - j)) .down := by
  have hlt := s.reload.isLt
  induction j, h1 using Nat.le_induction with
  | base =>
    rw [Function.iterate_succ_apply', tick_iterate_up hcnt hdir le_rfl, BitVec.ofNat_toNat, BitVec.setWidth_eq,
      tick_at_turn hj]
  | succ j h1 ih =>
    rw [← Nat.add_assoc, Function.iterate_succ_apply', ih (by omega), tick_at_down (by omega) (by omega) (by omega)]
    rfl

/-- No overflow event before the last tick of a counting cycle (R113). -/
theorem tick_iterate_ovf {k : Nat} (hk : k < 2 * s.reload.toNat) : (State.tick^[k] s).ovf = s.ovf := by
  obtain hle | hgt := le_or_gt k s.reload.toNat
  · rw [tick_iterate_up hcnt hdir hle, setCounter_ovf]
  · obtain ⟨j, rfl⟩ := Nat.exists_eq_add_of_lt hgt
    rw [Nat.add_assoc, tick_iterate_down hcnt hdir (by omega) (by omega), setCounter_ovf]

/-- After `2 * RELOAD` ticks the block is where it began, with the overflow pending (R113). -/
theorem tick_iterate_cycle (hr : 1 ≤ s.reload.toNat) : State.tick^[2 * s.reload.toNat] s = s.setOvf true := by
  have hlast : ∃ d : Dir, (d = .up → s.reload = 1) ∧ State.tick^[2 * s.reload.toNat - 1] s = s.setCounter 1 d := by
    obtain hone | htwo := Nat.eq_or_lt_of_le hr
    · refine ⟨.up, fun _ => BitVec.eq_of_toNat_eq hone.symm, ?_⟩
      rw [← hone]
      exact tick_iterate_up hcnt hdir hr
    · have hsplit : 2 * s.reload.toNat - 1 = s.reload.toNat + (s.reload.toNat - 1) := by omega
      refine ⟨.down, nofun, ?_⟩
      rw [hsplit, tick_iterate_down hcnt hdir (by omega) (by omega), Nat.sub_sub_self hr]
      rfl
  obtain ⟨d, hd, hlast⟩ := hlast
  rw [← Nat.sub_add_cancel (show 1 ≤ 2 * s.reload.toNat by omega), Function.iterate_succ_apply', hlast,
    tick_at_end hr hd, setCounter_zero_up hcnt hdir]

end

end Sys2Proof.Machine
end

section
/-! SUPPORT. A counting cycle in clock cycles: with nothing lined up a run is the block's clock, which ticks once per divisor
(R87, R109, R110). -/

namespace Sys2Proof.Machine

/-! The clock between two ticks -/

/-- A tick reads nothing of the phase. -/
theorem tick_setPhase (s : State) (p : BitVec 11) : (s.setPhase p).tick = s.tick.setPhase p := by
  refine (tick_congr s p s.rdata).trans ?_
  rw [← tick_rdata]; rfl

@[simp] theorem tick_ecs (s : State) : s.tick.ecs = s.ecs := by simp only [State.ecs, tick_run, tick_psel]

theorem setPhase_self {s : State} {n : Nat} (h : s.phase.toNat = n) : s.setPhase (BitVec.ofNat 11 n) = s := by
  rw [← h, BitVec.ofNat_toNat, BitVec.setWidth_eq]; rfl

section
variable {s : State} {n : Nat} (hn : s.ecs.div? = some n) (hl : s.phaseLoaded = false)
include hn hl

/-- Until `PHASE` runs out, the clock counts it down and nothing else (R110). -/
theorem clockCycle_iterate_count {j : Nat} (hj : j < s.phase.toNat) :
    State.clockCycle^[j] s = s.setPhase (BitVec.ofNat 11 (s.phase.toNat - j)) := by
  induction j generalizing s with
  | zero => exact (setPhase_self rfl).symm
  | succ j ih =>
    have hsub := toNat_phase_sub_one (Nat.one_le_of_lt hj)
    have hne : s.phase ≠ 1 := fun e => absurd hj (by rw [e]; exact Nat.not_lt_of_le (Nat.le_add_left _ _))
    have hcount : s.clockCycle = s.setPhase (s.phase - 1) := clockCycle_count hn hl hne
    have hrest := ih (s := s.setPhase (s.phase - 1)) hn hl (by rw [setPhase_phase, hsub]; omega)
    rw [Function.iterate_succ_apply, hcount, hrest, setPhase_phase, hsub, Nat.sub_sub, Nat.add_comm 1]
    rfl

/-- Where it begins at the divisor, one divisor of clock cycles is one tick (R109, R110). -/
theorem clockCycle_iterate_div (hp : s.phase.toNat = n) : State.clockCycle^[n] s = s.tick := by
  obtain ⟨-, -, hd⟩ := ecs_div? hn
  obtain ⟨m, rfl⟩ := Nat.exists_eq_add_of_le' (div?_bounds hd).1
  rw [Function.iterate_succ_apply', clockCycle_iterate_count hn hl (hp ▸ Nat.lt_succ_self m), hp, Nat.add_sub_cancel_left]
  refine (clockCycle_tick (s := s.setPhase 1) hn hl rfl).trans ?_
  rw [tick_setPhase]
  exact setPhase_self (s := s.tick) (by rwa [tick_phase])

end

/-- From the start of a divisor on, each divisor of clock cycles is a tick (R109, R110). -/
theorem clockCycle_iterate_ticks {s : State} {n i : Nat} (hn : s.ecs.div? = some n) (hl : s.phaseLoaded = false)
    (hp : s.phase.toNat = n) (hi : i < n) (k : Nat) :
    State.clockCycle^[k * n + i] s = (State.tick^[k] s).setPhase (BitVec.ofNat 11 (n - i)) := by
  induction k generalizing s with
  | zero => rw [Nat.zero_mul, Nat.zero_add, clockCycle_iterate_count hn hl (hp ▸ hi), hp]; rfl
  | succ k ih =>
    rw [Nat.succ_mul, Nat.add_right_comm, Function.iterate_add_apply, clockCycle_iterate_div hn hl hp,
      ih (by rwa [tick_ecs]) (by rwa [tick_phaseLoaded]) (by rwa [tick_phase])]
    rfl

/-! Runs of the clock alone -/

/-- With nothing lined up and no read to forget, a run is the block's clock (R73, R110). -/
theorem run_idle {s : State} (hin : s.inputs = []) (hrd : s.rdata = none) (k : Nat) :
    Host.Core.run Sys2Proof.core k s = .next (State.clockCycle^[k] s) := by
  induction k generalizing s with
  | zero => rfl
  | succ k ih =>
    have hquiet : s.setRdata none = s := by rw [← hrd]; rfl
    have hstep : step s = .next s.clockCycle := by rw [step_idle hin, hquiet]
    rw [run_succ k hstep, ih (by rwa [clockCycle_inputs]) (by rwa [clockCycle_rdata])]
    rfl

/-! The statement -/

/-- Settles O53: a counting cycle is `2 * r` ticks, each a divisor of clock cycles; the realised period is twice the quotient
times the divisor. -/
theorem countingCycleOfClocks : Obligations.CountingCycleOfClocks := by
  refine ⟨fun s n hin hrd hl hrun hd hp hcnt hdir hr => ?_, fun clk us n hn h => ?_⟩
  · have hn : s.ecs.div? = some n := by rw [ecs_counting hrun, hd]
    have hpos : 0 < n := (div?_bounds hd).1
    have hclock {i : Nat} (hi : i < n) (k : Nat) := clockCycle_iterate_ticks hn hl hp hi k
    refine ⟨fun j hj => ⟨_, run_idle hin hrd j, ?_⟩, ?_⟩
    · have hticks : j / n < 2 * s.reload.toNat := (Nat.div_lt_iff_lt_mul hpos).mpr hj
      rw [← Nat.div_add_mod' j n, hclock (Nat.mod_lt j hpos), setPhase_ovf, tick_iterate_ovf hcnt hdir hticks]
    · have hcycle := hclock hpos (2 * s.reload.toNat)
      rw [Nat.add_zero, tick_iterate_cycle hcnt hdir hr, Nat.sub_zero, setPhase_self (by simpa using hp)] at hcycle
      exact (run_idle hin hrd _).trans (congrArg Host.Outcome.next hcycle)
  · obtain ⟨hle, hlt⟩ := realised_bounds hn h
    obtain ⟨hrequest, -⟩ := cycles_bounds clk us
    refine ⟨hle, (Nat.add_one_mul _ n).symm ▸ hlt, ?_, by rw [Nat.mul_assoc 2]; omega⟩
    calc 2 * (periodConfig clk us).2.toNat * n * 1000000
        = (periodConfig clk us).2.toNat * n * 2000000 := by ring
      _ ≤ cycles clk us * 2000000 := Nat.mul_le_mul_right _ hle
      _ ≤ clk * us := hrequest

end Sys2Proof.Machine
end

section
/-! SUPPORT. The run-control commands (R89 to R92), and what every command does to the run state (R95). -/

namespace Sys2Proof.Machine

/-- Settles O18: `START` is counting from zero, with the phase drawn at its end. -/
theorem startCountsFromZero : Obligations.StartCountsFromZero :=
  fun s => ⟨s.startCounting, rfl, startCounting_phaseDrawn s⟩

/-- Settles O19: `STOP` is one write of `RUN`. -/
theorem stopWritesRunOnly : Obligations.StopWritesRunOnly := fun _ => rfl

/-- Settles O20: both commands have one meaning. -/
theorem restartIsStart : Obligations.RestartIsStart :=
  fun s => ⟨rfl, s.startCounting, rfl, startCounting_phaseDrawn s⟩

/-- Settles O21: the run state decides between a phase load and no effect. -/
theorem resumeCountsOn : Obligations.ResumeCountsOn :=
  fun _ => ⟨fun h => ⟨_, exec_resume_stopped h, loadPhaseOfPsel_phaseDrawn _⟩, exec_resume_counting⟩

/-- Settles O28: the forms a command's commit can have, row by row. -/
theorem runStateTransitionTable : Obligations.RunStateTransitionTable := by
  intro i s
  obtain ⟨t, ht, hx⟩ := exec_executed i s
  refine ⟨t, ht, ?_⟩
  cases hx with
  | init => exact ⟨rfl, rfl⟩
  | start | restart => simp
  | stop => exact ⟨rfl, rfl, rfl, rfl⟩
  | resume h | resumeNop h => simp [h]
  | setperiod | pwm | pwmNop | setduty | setdutyNop | dispwm | dispwmNop | attach | detach => simp

end Sys2Proof.Machine
end

section
/-! SUPPORT. A pause: from `STOP` to `RESUME` the configuration and the counter stand still, whatever else the host does but
a reset, a period command or another start (R93). -/

namespace Sys2Proof.Machine

/-- A well-formed command lined up: its commit, then the clock (R37, R59, R69). -/
theorem step_wrCmd {s t : State} {i : Instr} {rest : List Cycle} (hi : i.wellFormed = true)
    (hin : s.inputs = wrCmd i :: rest) (h : exec i ((s.setInputs rest).setRdata none) = .next t) :
    step s = .next t.clockCycle :=
  (step_cons hin).trans (runCycle_cmdWrite (decodeWord_encode hi) h)

/-- No commit touches the host's list. -/
theorem Committed.inputs {c : Cycle} {s u : State} (h : Committed c s u) : u.inputs = s.inputs := by
  obtain ⟨i, -, hx⟩ | ⟨a, b, o, v, rfl⟩ := h.executed_or_quiet
  · cases hx <;> simp
  · rfl

/-- What a pause keeps: the clock configuration and the counter (R93). -/
def State.timebase (s : State) : Psel × Half × Half × Dir := (s.psel, s.reload, s.cnt, s.dir)

theorem timebase_eq {s t : State} :
    t.timebase = s.timebase ↔ t.psel = s.psel ∧ t.reload = s.reload ∧ t.cnt = s.cnt ∧ t.dir = s.dir := by
  simp only [State.timebase, Prod.mk.injEq]

/-- The cycle can share a pause: no reset, no command that computes a period, starts or resumes (R93). -/
def Cycle.sparesPause (c : Cycle) : Prop :=
  c.isRst = false ∧ ∀ i, c.command? = some i → periodCommand i = false ∧ i ≠ .start ∧ i ≠ .restart ∧ i ≠ .resume

/-- The commit of such a cycle leaves a stopped block stopped, with its configuration and counter (R19, R21, R23). -/
theorem Committed.paused {c : Cycle} {s u : State} (h : Committed c s u) (hc : c.sparesPause) (hs : s.run = .stopped) :
    u.run = .stopped ∧ u.timebase = s.timebase := by
  obtain ⟨i, hi, hx⟩ | ⟨a, b, o, v, rfl⟩ := h.executed_or_quiet
  · obtain ⟨hperiod, hstart, hrestart, hresume⟩ := hc.2 i hi
    have hinit : i ≠ .init := by rintro rfl; cases hperiod
    obtain ⟨hpsel, hreload⟩ := hx.clock.resolve_right fun ⟨hp, _⟩ => by simp [hperiod] at hp
    obtain ⟨hcnt, hdir⟩ := hx.counter.resolve_right (by simp [hinit, hstart, hrestart])
    refine ⟨?_, timebase_eq.mpr ⟨hpsel, hreload, hcnt, hdir⟩⟩
    obtain e | hm := hx.run
    · exact e.trans hs
    · obtain rfl : i = .stop := by simpa [hinit, hstart, hrestart, hresume] using hm
      cases hx
      rfl
  · exact ⟨hs, rfl⟩

/-- The clock of a stopped block moves nothing (R22, R110). -/
theorem clockCycle_paused {s : State} (hs : s.run = .stopped) : s.clockCycle.timebase = s.timebase := by
  rw [clockCycle_unclocked (by rw [ecs_stopped hs]; rfl)]
  rfl

/-- A step of a pause. -/
theorem step_paused {s : State} {c : Cycle} {rest : List Cycle} (hin : s.inputs = c :: rest) (hc : c.sparesPause)
    (hs : s.run = .stopped) :
    ∃ t, step s = .next t ∧ t.run = .stopped ∧ t.timebase = s.timebase ∧ t.inputs = rest := by
  have hnext : s.nextCycle = c := by rw [State.nextCycle, hin]; rfl
  obtain ⟨a, ha, -⟩ | ⟨-, u, hu, e⟩ := step_cases s
  · obtain ⟨hrst, -⟩ := hc
    rw [← hnext, ha] at hrst
    cases hrst
  · rw [hnext] at hu
    obtain ⟨hrun, hsame⟩ := hu.paused hc hs
    refine ⟨u.clockCycle, e, by rwa [clockCycle_run], (clockCycle_paused hrun).trans hsame, ?_⟩
    rw [clockCycle_inputs, hu.inputs, popped_inputs, hin]
    rfl

/-- A whole pause: the induction over its cycles. -/
theorem run_paused {s : State} {cs rest : List Cycle} (hin : s.inputs = cs ++ rest) (hcs : ∀ c ∈ cs, c.sparesPause)
    (hs : s.run = .stopped) :
    ∃ t : State, Host.Core.run Sys2Proof.core cs.length s = .next t ∧ t.run = .stopped ∧ t.timebase = s.timebase ∧
      t.inputs = rest := by
  induction cs generalizing s with
  | nil => exact ⟨s, rfl, hs, rfl, hin⟩
  | cons c cs ih =>
    obtain ⟨hc, hcs⟩ := List.forall_mem_cons.mp hcs
    obtain ⟨t, ht, hrunt, hst, hint⟩ := step_paused hin hc hs
    obtain ⟨u, hu, hrunu, htu, hinu⟩ := ih hint hcs hrunt
    exact ⟨u, (run_succ _ ht).trans hu, hrunu, htu.trans hst, hinu⟩

/-- The step of a `STOP` (R90). -/
theorem step_stop {s : State} {rest : List Cycle} (hin : s.inputs = wrCmd .stop :: rest) :
    ∃ t, step s = .next t ∧ t.run = .stopped ∧ t.timebase = s.timebase ∧ t.inputs = rest :=
  ⟨_, step_wrCmd rfl hin rfl, clockCycle_run _, clockCycle_paused rfl, clockCycle_inputs _⟩

/-- The step of a `RESUME` from Stopped: no tick can share its cycle (R92, R120). -/
theorem step_resume {s : State} {rest : List Cycle} (hin : s.inputs = wrCmd .resume :: rest) (hs : s.run = .stopped) :
    ∃ t, step s = .next t ∧ t.run = .counting ∧ t.timebase = s.timebase := by
  refine ⟨_, step_wrCmd rfl hin (exec_resume_stopped hs), by simp, ?_⟩
  rw [loadPhaseOfPsel_clockCycle, timebase_eq]
  simp

/-- Settles O30: `STOP`, a pause, `RESUME`, each keeping configuration and counter. -/
theorem stopThenResumeKeepsTheClock : Obligations.StopThenResumeKeepsTheClock := by
  intro s cs hin hcs
  obtain ⟨t, ht, hrunt, hst, hint⟩ := step_stop hin
  obtain ⟨v, hv, hrunv, htv, hinv⟩ := run_paused hint hcs hrunt
  obtain ⟨u, hu, hrunu, hvu⟩ := step_resume hinv hrunv
  have hrun : Host.Core.run Sys2Proof.core (cs.length + 2) s = .next u := by
    rw [run_succ _ ht, run_add 1 hv, run_succ 0 hu, run_zero]
  obtain ⟨hpselt, hreloadt, hcntt, hdirt⟩ := timebase_eq.mp hst
  exact ⟨t, u, run_succ 0 ht, hrunt, hpselt, hreloadt, hcntt, hdirt, hrun, hrunu,
    timebase_eq.mp (hvu.trans (htv.trans hst))⟩

end Sys2Proof.Machine
end

section
/-! SUPPORT. The first overflow event after a start (R89, R94): the clock is seen as having entered the current divisor
`n - PHASE` cycles before the run began, so that the ticks fall where they fall from the start of a divisor. -/

namespace Sys2Proof.Machine

/-- Ticks do not read the phase, and leave it alone. -/
theorem tick_iterate_setPhase (s : State) (p : BitVec 11) (k : Nat) :
    State.tick^[k] (s.setPhase p) = (State.tick^[k] s).setPhase p :=
  Function.Commute.iterate_left (g := fun u : State => u.setPhase p) (fun u => tick_setPhase u p) k s

/-- From any legal phase: `j` clock cycles later, `k` whole divisors and `i` cycles after the current one was entered, the
counter has ticked `k` times (R109, R110). -/
theorem clockCycle_iterate_of_phase {s : State} {n i j k : Nat} (hn : s.ecs.div? = some n) (hl : s.phaseLoaded = false)
    (h1 : 1 ≤ s.phase.toNat) (hle : s.phase.toNat ≤ n) (hi : i < n) (hj : j + (n - s.phase.toNat) = k * n + i) :
    State.clockCycle^[j] s = (State.tick^[k] s).setPhase (BitVec.ofNat 11 (n - i)) := by
  obtain ⟨-, -, hd⟩ := ecs_div? hn
  have hphase : (s.setPhase (BitVec.ofNat 11 n)).phase.toNat = n := toNat_phase (div?_bounds hd).2
  have hentered : State.clockCycle^[n - s.phase.toNat] (s.setPhase (BitVec.ofNat 11 n)) = s := by
    rw [clockCycle_iterate_count (s := s.setPhase (BitVec.ofNat 11 n)) hn hl (by omega), hphase, Nat.sub_sub_self hle]
    exact setPhase_self (s := s) rfl
  calc State.clockCycle^[j] s
      = State.clockCycle^[j + (n - s.phase.toNat)] (s.setPhase (BitVec.ofNat 11 n)) := by
        rw [Function.iterate_add_apply, hentered]
    _ = (State.tick^[k] (s.setPhase (BitVec.ofNat 11 n))).setPhase (BitVec.ofNat 11 (n - i)) := by
        rw [hj, clockCycle_iterate_ticks (s := s.setPhase (BitVec.ofNat 11 n)) hn hl hphase hi]
    _ = (State.tick^[k] s).setPhase (BitVec.ofNat 11 (n - i)) := by rw [tick_iterate_setPhase]; rfl

/-- The step of a start: the clock of its cycle only ends the note of the load (R89, R91, R120). -/
theorem step_start {s : State} {i : Instr} {rest : List Cycle} (hi : i = .start ∨ i = .restart)
    (hin : s.inputs = wrCmd i :: rest) :
    step s = .next ((s.setInputs rest).setRdata none).startCounting.clearLoaded := by
  rw [← startCounting_clockCycle]
  obtain rfl | rfl := hi
  · exact step_wrCmd rfl hin rfl
  · exact step_wrCmd rfl hin rfl

/-- A start of a configured block leaves a phase in `1 .. DIV` (R109). -/
theorem startCounting_phase_bounds {s : State} {n : Nat} (hd : s.psel.div? = some n) :
    1 ≤ s.startCounting.phase.toNat ∧ s.startCounting.phase.toNat ≤ n := by
  obtain ⟨hnone, -⟩ | ⟨d, k, m, hd', h1, hk, e⟩ := startCounting_phaseDrawn s
  · rw [hd] at hnone
    cases hnone
  · obtain rfl : n = d := Option.some.inj (hd.symm.trans hd')
    rw [e, toNat_phase (hk.trans (div?_bounds hd).2)]
    exact ⟨h1, hk⟩

/-- From `CNT = 0`, up, with any legal phase, the first overflow event is at the `2 * RELOAD`-th tick (R94, R113). -/
theorem clockCycle_iterate_first_overflow {s : State} {n : Nat} (hn : s.ecs.div? = some n) (hl : s.phaseLoaded = false)
    (h1 : 1 ≤ s.phase.toNat) (hle : s.phase.toNat ≤ n) (hcnt : s.cnt = 0) (hdir : s.dir = .up)
    (hr : 1 ≤ s.reload.toNat) :
    (∀ j, j < s.phase.toNat + (2 * s.reload.toNat - 1) * n → (State.clockCycle^[j] s).ovf = s.ovf) ∧
      State.clockCycle^[s.phase.toNat + (2 * s.reload.toNat - 1) * n] s
        = (s.setOvf true).setPhase (BitVec.ofNat 11 n) := by
  have hcycle : (2 * s.reload.toNat - 1) * n + n = 2 * s.reload.toNat * n := by
    rw [← Nat.succ_mul, Nat.succ_eq_add_one, Nat.sub_add_cancel (by omega)]
  refine ⟨fun j hj => ?_, ?_⟩
  · have hticks : (j + (n - s.phase.toNat)) / n < 2 * s.reload.toNat :=
      (Nat.div_lt_iff_lt_mul (by omega)).mpr (by omega)
    rw [clockCycle_iterate_of_phase hn hl h1 hle (Nat.mod_lt _ (by omega)) (Nat.div_add_mod' _ n).symm, setPhase_ovf,
      tick_iterate_ovf hcnt hdir hticks]
  · rw [clockCycle_iterate_of_phase (i := 0) (k := 2 * s.reload.toNat) hn hl h1 hle (by omega) (by omega),
      tick_iterate_cycle hcnt hdir hr]
    rfl

/-- A start of a configured block leaves its counter clocked (R22, R89). -/
theorem startCounting_ecs {s : State} {n : Nat} (hd : s.psel.div? = some n) :
    s.startCounting.clearLoaded.ecs.div? = some n := by
  rw [ecs_counting (by simp), clearLoaded_psel, startCounting_psel, hd]

/-- Right after a start, whether or not an overflow was pending before it, the first overflow event is at the
`2 * RELOAD`-th tick (R89, R94). -/
theorem startCounting_first_overflow {s : State} {n : Nat} (hd : s.psel.div? = some n) (hr : 1 ≤ s.reload.toNat) :
    (∀ j, j < s.startCounting.phase.toNat + (2 * s.reload.toNat - 1) * n →
      (State.clockCycle^[j] s.startCounting.clearLoaded).ovf = false) ∧
    State.clockCycle^[s.startCounting.phase.toNat + (2 * s.reload.toNat - 1) * n] s.startCounting.clearLoaded
      = (s.startCounting.clearLoaded.setOvf true).setPhase (BitVec.ofNat 11 n) := by
  obtain ⟨h1, hle⟩ := startCounting_phase_bounds hd
  have hreload : s.startCounting.clearLoaded.reload = s.reload := by simp
  obtain ⟨hbefore, hat⟩ :=
    clockCycle_iterate_first_overflow (startCounting_ecs hd) rfl h1 hle (by simp) (by simp) (hreload ▸ hr)
  rw [hreload] at hbefore hat
  exact ⟨fun j hj => (hbefore j hj).trans (by simp), hat⟩

/-- With just a start lined up, the run after its cycle is the block's clock (R73, R110). -/
theorem run_start {s : State} {i : Instr} (hi : i = .start ∨ i = .restart) (hin : s.inputs = [wrCmd i]) (j : Nat) :
    Host.Core.run Sys2Proof.core (j + 1) s
      = .next (State.clockCycle^[j] ((s.setInputs []).setRdata none).startCounting.clearLoaded) := by
  rw [run_succ j (step_start hi hin)]
  exact run_idle (by simp) (by simp) j

/-- Settles O52: a start clears a pending overflow, and after it only the clock runs. -/
theorem firstOverflowAfterStart : Obligations.FirstOverflowAfterStart := by
  intro s n i hi hin hd hr
  obtain ⟨h1, hle⟩ := startCounting_phase_bounds (s := (s.setInputs []).setRdata none) hd
  obtain ⟨hbefore, hat⟩ := startCounting_first_overflow (s := (s.setInputs []).setRdata none) hd hr
  refine ⟨_, h1, hle, fun j hj => ⟨_, run_start hi hin j, hbefore j hj, ?_⟩, _,
    (run_start hi hin _).trans (congrArg _ hat), ?_⟩
  · rw [State.irq, hbefore j hj, Bool.false_and]
  · simp [State.irq]

end Sys2Proof.Machine
end

section
/-! SUPPORT. The PWM family and its converter (R96 to R101): the compare value is the one number whose multiple of the scale
the product `r * d'`, raised by half a scale, falls on. -/

namespace Sys2Proof.Machine

theorem fullScale_pos (fs : FullScale) : 0 < fs.value := by cases fs <;> decide

/-- The half scale that `conv` adds is lost where the rest is a multiple of the scale (R97). -/
theorem half_div_fullScale (fs : FullScale) : fs.value / 2 / fs.value = 0 :=
  Nat.div_eq_of_lt (Nat.div_lt_self (fullScale_pos fs) one_lt_two)

/-- What the division of `conv` says (R97). -/
theorem conv_rounds (fs : FullScale) (r : Half) (d : Nat) :
    (conv fs r d).toNat * fs.value ≤ r.toNat * min d fs.value + fs.value / 2 ∧
      r.toNat * min d fs.value + fs.value / 2 < (conv fs r d).toNat * fs.value + fs.value := by
  rw [conv_toNat, clampDuty]
  exact ⟨Nat.div_mul_le_self _ _, Nat.lt_div_mul_add (fullScale_pos fs)⟩

/-- Twice the error lies above minus the scale and at most at the scale (R97). -/
theorem conv_error (fs : FullScale) (r : Half) (d : Nat) :
    2 * (r.toNat * min d fs.value) < 2 * ((conv fs r d).toNat * fs.value) + fs.value ∧
      2 * ((conv fs r d).toNat * fs.value) ≤ 2 * (r.toNat * min d fs.value) + fs.value := by
  obtain ⟨hle, hlt⟩ := conv_rounds fs r d
  omega

/-- `conv` is non-decreasing in both arguments (R98). -/
theorem conv_mono (fs : FullScale) {r r' : Half} {d d' : Nat} (hr : r.toNat ≤ r'.toNat) (hd : d ≤ d') :
    (conv fs r d).toNat ≤ (conv fs r' d').toNat := by
  have hclamp : clampDuty fs d ≤ clampDuty fs d' := min_le_min_right _ hd
  rw [conv_toNat, conv_toNat]
  exact Nat.div_le_div_right (Nat.add_le_add_right (Nat.mul_le_mul hr hclamp) _)

/-- From full scale on, the compare value is the reload value (R98). -/
theorem conv_of_fullScale_le {fs : FullScale} {d : Nat} (h : fs.value ≤ d) (r : Half) : conv fs r d = r := by
  apply BitVec.eq_of_toNat_eq
  rw [conv_toNat, clampDuty, min_eq_right h, Nat.mul_comm, Nat.mul_add_div (fullScale_pos fs), half_div_fullScale,
    Nat.add_zero]

/-- The compare value never exceeds the reload value: it is below the one of a duty at full scale (R98). -/
theorem conv_le (fs : FullScale) (r : Half) (d : Nat) : (conv fs r d).toNat ≤ r.toNat :=
  calc (conv fs r d).toNat
      ≤ (conv fs r (max d fs.value)).toNat := conv_mono fs le_rfl (le_max_left _ _)
    _ = r.toNat := by rw [conv_of_fullScale_le (le_max_right _ _)]

/-- Duty 0 is compare value 0 (R98). -/
theorem conv_zero_duty (fs : FullScale) (r : Half) : conv fs r 0 = 0 := by
  apply BitVec.eq_of_toNat_eq
  rw [conv_toNat, clampDuty, Nat.zero_min, Nat.mul_zero, Nat.zero_add, half_div_fullScale]
  rfl

/-- Reload value 0 is compare value 0 (R98). -/
theorem conv_zero_reload (fs : FullScale) (d : Nat) : conv fs 0 d = 0 :=
  BitVec.eq_of_toNat_eq (Nat.eq_zero_of_le_zero (conv_le fs 0 d))

/-- `applyPeriodIf` is `apply_period` where `P` is 1 and nothing where it is 0 (R66, R78). -/
theorem applyPeriodIf_periodApplied (s : State) (p : Bool) :
    if p = true then PeriodApplied s (s.applyPeriodIf p) else s.applyPeriodIf p = s := by
  cases p with
  | false => exact rfl
  | true => exact applyPeriod_periodApplied s

/-! The statements -/

/-- Settles O22: the state between is the one after `apply_period`, if `P` asks for it. -/
theorem pwmEnablesTheChannel : Obligations.PwmEnablesTheChannel := fun s p duty =>
  ⟨s.applyPeriodIf p, applyPeriodIf_periodApplied s p, exec_pwm_some (x := .A) rfl p duty s,
    exec_pwm_some (x := .B) rfl p duty s, fun _ hch => exec_pwm_none (channelOf_eq_none.mpr hch) p duty s⟩

/-- Settles O46: with 1023 a tie would make an odd number even. -/
theorem converterRoundsToNearest : Obligations.ConverterRoundsToNearest := by
  refine ⟨by decide, fun fs r d => ?_⟩
  obtain ⟨hlow, hhigh⟩ := conv_error fs r d
  refine ⟨hlow, hhigh, ?_⟩
  rintro rfl
  have hodd : FullScale.k1023.value = 1023 := rfl
  omega

/-- Settles O47: the ends of both ranges, the order and the error. -/
theorem converterProperties : Obligations.ConverterProperties := fun fs r _ d _ =>
  ⟨conv_zero_duty fs r, fun h => conv_of_fullScale_le h r, conv_zero_reload fs d, conv_le fs r d,
    fun hd => conv_mono fs le_rfl hd, fun hr => conv_mono fs hr le_rfl, (conv_error fs r d).1.le, (conv_error fs r d).2⟩

/-- Settles O23: a recognized channel's compare value, or nothing. -/
theorem setdutyWritesTheCompareOnly : Obligations.SetdutyWritesTheCompareOnly := fun s duty =>
  ⟨exec_setduty_some (x := .A) rfl duty s, exec_setduty_some (x := .B) rfl duty s,
    fun _ hch => exec_setduty_none (channelOf_eq_none.mpr hch) duty s⟩

/-- Settles O24: a recognized channel's enable, or nothing. -/
theorem dispwmWritesTheEnableOnly : Obligations.DispwmWritesTheEnableOnly := fun s =>
  ⟨exec_dispwm_some (x := .A) rfl s, exec_dispwm_some (x := .B) rfl s,
    fun _ hch => exec_dispwm_none (channelOf_eq_none.mpr hch) s⟩

end Sys2Proof.Machine
end

section
/-! SUPPORT. The interrupt family: `ATTACH` and `DETACH` (R103, R104), and that a disabled interrupt stays disabled until the
next `ATTACH` (R105). -/

namespace Sys2Proof.Machine

/-- Settles O26: the state between is the one after `apply_period`, if `P` asks for it; it keeps `ARG_HANDLE` and `OVF`. -/
theorem attachStoresAndEnables : Obligations.AttachStoresAndEnables := by
  intro s p
  refine ⟨s.applyPeriodIf p, _, applyPeriodIf_periodApplied s p, rfl, rfl, applyPeriodIf_ovf s p, ?_⟩
  calc ((s.applyPeriodIf p).ovf && true)
      = (s.applyPeriodIf p).ovf := Bool.and_true _
    _ = s.ovf := applyPeriodIf_ovf s p

/-- A disabled interrupt is silent, pending or not (R31). -/
theorem irq_of_disabled {s : State} (h : s.ovie = false) : s.irq = false := by
  rw [State.irq, h, Bool.and_false]

/-- Settles O27: `DETACH` is one write of `OVIE`. -/
theorem detachWritesTheEnableOnly : Obligations.DetachWritesTheEnableOnly :=
  fun s => ⟨s.setOvie false, rfl, rfl, irq_of_disabled rfl⟩

/-- Every step completes (R107, R110). -/
theorem step_next (s : State) : ∃ t, step s = .next t := by
  obtain ⟨a, -, h⟩ | ⟨-, u, -, h⟩ := step_cases s
  · exact ⟨_, h⟩
  · exact ⟨_, h⟩

/-- A step takes one cycle from the host's list, if there is one (R57). -/
theorem step_inputs {s t : State} (h : step s = .next t) : t.inputs = s.inputs.tail := by
  obtain ⟨a, -, rfl⟩ | ⟨-, u, hu, rfl⟩ := step_next_cases h
  · rfl
  · rw [clockCycle_inputs, hu.inputs, popped_inputs]

/-- Only `ATTACH` enables the interrupt: a step with another cycle leaves it disabled, a reset included (R29, R47). -/
theorem step_keeps_disabled {s t : State} (h : step s = .next t) (hs : s.ovie = false)
    (hc : ∀ p, s.nextCycle.command? ≠ some (.attach p)) : t.ovie = false := by
  obtain ⟨hreset, hother⟩ := onlyTheseWriteTheCallback s t h
  cases hr : s.nextCycle.isRst with
  | true => exact (hreset hr).1
  | false =>
    obtain ⟨henable, -⟩ := hother hr
    refine Bool.eq_false_iff.mpr fun ht => ?_
    obtain ⟨p, hp⟩ := henable hs ht
    exact hc p hp

/-- The next of `k + 1` cycles without `ATTACH`, the idle one of an empty list included, is no `ATTACH`. -/
theorem nextCycle_ne_attach {s : State} {k : Nat}
    (h : ∀ c ∈ s.inputs.take (k + 1), ∀ p, c.command? ≠ some (.attach p)) (p : Bool) :
    s.nextCycle.command? ≠ some (.attach p) := by
  rw [State.nextCycle]
  cases hin : s.inputs with
  | nil => exact fun hidle => nomatch hidle
  | cons c cs => exact h c (by simp [hin]) p

/-- A run of `k` steps without `ATTACH` leaves a disabled interrupt disabled: the induction over its steps (R105). -/
theorem run_keeps_disabled {s : State} {k : Nat} (hs : s.ovie = false)
    (hcs : ∀ c ∈ s.inputs.take k, ∀ p, c.command? ≠ some (.attach p)) :
    ∃ t : State, Host.Core.run Sys2Proof.core k s = .next t ∧ t.ovie = false := by
  induction k generalizing s with
  | zero => exact ⟨s, rfl, hs⟩
  | succ k ih =>
    obtain ⟨t, ht⟩ := step_next s
    have hrest : ∀ c ∈ t.inputs.take k, ∀ p, c.command? ≠ some (.attach p) := fun c hc => by
      refine hcs c (List.mem_of_mem_tail ?_)
      rwa [List.tail_take_eq_take_tail, Nat.add_sub_cancel, ← step_inputs ht]
    rw [run_succ k ht]
    exact ih (step_keeps_disabled ht hs (nextCycle_ne_attach hcs)) hrest

/-- The step of a `DETACH` (R104). -/
theorem step_detach {s : State} {rest : List Cycle} (hin : s.inputs = wrCmd .detach :: rest) :
    ∃ t, step s = .next t ∧ t.ovie = false ∧ t.inputs = rest :=
  ⟨_, step_wrCmd rfl hin rfl, clockCycle_ovie _, clockCycle_inputs _⟩

/-- Settles O40: the `DETACH` disables the interrupt, and no step after it enables it again. -/
theorem detachSilencesTheInterrupt : Obligations.DetachSilencesTheInterrupt := by
  intro s cs k hin hcs
  obtain ⟨t, ht, hdisabled, hrest⟩ := step_detach hin
  obtain ⟨u, hu, hsilent⟩ := run_keeps_disabled hdisabled (hrest.symm ▸ hcs)
  exact ⟨u, (run_succ k ht).trans hu, irq_of_disabled hsilent⟩

end Sys2Proof.Machine
end

section
/-! SUPPORT. The signals the block drives (R106, R115, R117). -/

namespace Sys2Proof.Machine

/-- An enabled channel drives its pin with `CNT < CMP` (R115). -/
theorem out_enabled {s : State} {x : ChannelId} (h : (s.chan x).en = true) :
    s.out x = some (decide (s.cnt.toNat < (s.chan x).cmp.toNat)) := if_pos h

/-- A disabled channel drives nothing (R117). -/
theorem out_disabled {s : State} {x : ChannelId} (h : (s.chan x).en = false) : s.out x = none := by
  rw [State.out, State.oe, h]; rfl

/-- Settles O55: each signal is the element R106 names for it. -/
theorem signalsAreAsListed : Obligations.SignalsAreAsListed :=
  fun _ => ⟨rfl, rfl, rfl, rfl, rfl, rfl, rfl, rfl, rfl⟩

/-- Settles O56: `OE_x` is `EN_x`, and it decides between a level and nothing. -/
theorem outputCompareLevel : Obligations.OutputCompareLevel :=
  fun _ _ => ⟨fun h => ⟨h, out_enabled h⟩, fun h => ⟨h, out_disabled h⟩⟩

end Sys2Proof.Machine
end

section
/-! SUPPORT. Accesses outside the window, and the order of access and tick within one clock cycle (R45, R107, R120). -/

namespace Sys2Proof.Machine

/-- The step of an access outside the window is the block's clock alone (R45, R110). -/
theorem step_outside {s : State} {a : Access} {rest : List Cycle} (h : a.inWindow = false)
    (hin : s.inputs = .access a :: rest) : step s = .next ((s.setInputs rest).setRdata none).clockCycle :=
  (step_cons hin).trans (runCycle_access (accessBlock_outside h _))

/-- Settles O9: every cycle completes, and an access outside the window reaches nothing of the block. -/
theorem everyStepAnswersANextState : Obligations.EveryStepAnswersANextState := by
  refine ⟨step_next, fun s off size v rest hoff hin => ?_⟩
  have hout {a : Access} (ha : a.off = off) : a.inWindow = false :=
    decide_eq_false fun ⟨h0, h64⟩ => by omega
  obtain hwrite | hread := hin
  · exact step_outside (hout rfl) hwrite
  · exact step_outside (hout rfl) hread

/-- Where `ticksNow` says so, the clock cycle is a tick and a new start of the phase (R110). -/
theorem clockCycle_ticksNow {s : State} (h : s.ticksNow = true) :
    ∃ p, s.clockCycle = { s.tick with phase := p } := by
  simp only [State.ticksNow, Bool.and_eq_true, Bool.not_eq_true', decide_eq_true_eq] at h
  obtain ⟨⟨hclocked, hl⟩, hp⟩ := h
  obtain ⟨n, hn⟩ := Option.isSome_iff_exists.mp hclocked
  exact ⟨_, clockCycle_tick hn hl hp⟩

/-- Where a tick with an overflow event is due in `s`, a commit `u` that leaves alone what the tick reads ends its cycle with
`OVF` set, whatever it wrote there (R114, R120). -/
theorem clockCycle_ovf_of_tick {s u : State} (ht : s.ticksNow = true) (ho : s.tickOverflows = true)
    (hn : u.ticksNow = s.ticksNow) (hr : u.reload = s.reload) (hc : u.cnt = s.cnt) (hd : u.dir = s.dir) :
    u.clockCycle.ovf = true := by
  obtain ⟨p, e⟩ := clockCycle_ticksNow (hn.trans ht)
  rw [e]
  exact (tick_ovf u).trans (by rw [tickOverflows_congr hr hc hd, ho, Bool.or_true])

/-- The state after the cycle of an acknowledge: `OVF` cleared, then the clock (R44, R59). -/
def State.afterAck (s : State) : State := ((s.setRdata none).setOvf false).clockCycle

/-- An acknowledge with bit 0 set (R44, R73). -/
theorem runCycle_ack {v : Word} (hv : v.getLsbD 0 = true) (s : State) :
    runCycle (wr .irqAck v) s = .next s.afterAck :=
  runCycle_access ((accessBlock_write_aligned (off := 0x24) (by decide) rfl v s).trans (busWrite_ack_set hv _))

/-- Settles O15: neither an acknowledge nor a `DETACH` touches what the tick after it reads, and a start holds its tick
off. -/
theorem accessGoesBeforeTheTick : Obligations.AccessGoesBeforeTheTick := by
  refine ⟨fun s v rest hin hv ht ho => ?_, fun s rest hin ht ho => ?_, fun s rest hin => ?_⟩
  · exact ⟨_, (step_cons hin).trans (runCycle_ack hv _), clockCycle_ovf_of_tick ht ho rfl rfl rfl rfl⟩
  · exact ⟨_, step_wrCmd rfl hin rfl, clockCycle_ovf_of_tick ht ho rfl rfl rfl rfl, irq_of_disabled (clockCycle_ovie _)⟩
  · exact ⟨_, step_start (.inl rfl) hin, by simp⟩

end Sys2Proof.Machine
end

section
/-! SUPPORT. Ticks and the clock between them, with the counter as a number (R109 to R114). -/

namespace Sys2Proof.Machine

/-- A counter of at least 1 counts down by one, without the wrap of its sixteen bits (R111). -/
theorem toNat_cnt_sub_one {c : Half} (h : 1 ≤ c.toNat) : (c - 1).toNat = c.toNat - 1 :=
  BitVec.toNat_sub_of_le (BitVec.le_def.mpr h)

/-- A counter below another one counts up by one, without the wrap (R111). -/
theorem toNat_cnt_add_one {c r : Half} (h : c.toNat < r.toNat) : (c + 1).toNat = c.toNat + 1 :=
  BitVec.toNat_add_of_lt (Nat.lt_of_le_of_lt h r.isLt)

/-- Settles O48: the tick's cases, with the counter and the reload value as numbers. -/
theorem tickCases : Obligations.TickCases := by
  intro s
  have hnot_below (h : s.reload.toNat ≤ s.cnt.toNat) : ¬ s.cnt < s.reload := Nat.not_lt_of_le h
  refine ⟨fun hz => tick_zero (BitVec.eq_of_toNat_eq hz), fun hr hd hc => ?_, fun hr hd hc h2 => ?_,
    fun hr hd hc h1 => ?_, fun hr hd hc => tick_down_zero (reload_ne_zero hr) hd hc, fun hr hd hc => ?_⟩
  · refine ⟨s.cnt + 1, toNat_cnt_add_one hc, ?_⟩
    rw [tick_up (reload_ne_zero hr) hd hc, ← hd]
  · have hsub := toNat_cnt_sub_one (Nat.one_le_of_lt h2)
    have hne : s.cnt - 1 ≠ 0 := fun e => by
      have hz : (s.cnt - 1).toNat = 0 := by rw [e]; rfl
      omega
    exact ⟨s.cnt - 1, hsub, tick_turn (reload_ne_zero hr) hd (hnot_below hc) hne⟩
  · have hone : s.cnt = 1 := BitVec.eq_of_toNat_eq (Nat.le_antisymm h1 (hr.trans hc))
    exact tick_turn_zero (reload_ne_zero hr) hd (hnot_below hc) (by rw [hone]; rfl)
  · refine ⟨s.cnt - 1, toNat_cnt_sub_one (Nat.one_le_of_lt hc), ?_⟩
    rw [tick_down (reload_ne_zero hr) hd (Nat.not_le_of_lt hc), ← hd]

/-- Settles O51: the first tick is where the phase runs out, and each divisor after it is one tick more. -/
theorem ticksAreADivisorApart : Obligations.TicksAreADivisorApart := by
  intro s n hin hrd hl hrun hd h1 hle
  have hn : s.ecs.div? = some n := by rw [ecs_counting hrun, hd]
  refine ⟨fun j hj => ⟨_, run_idle hin hrd j, clockCycle_iterate_count hn hl hj⟩,
    fun k j hj => ⟨_, run_idle hin hrd _, clockCycle_iterate_of_phase hn hl h1 hle hj ?_⟩⟩
  calc s.phase.toNat + k * n + j + (n - s.phase.toNat)
      = k * n + n + j := by omega
    _ = (k + 1) * n + j := by rw [Nat.succ_mul]

section
variable {s : State} (hcnt : s.cnt = 0) (hdir : s.dir = .up)
include hcnt hdir

/-- Within a counting cycle, after `k` ticks: as far from 0 as `k` is from the nearer end of the cycle, on the way down
exactly beyond `RELOAD` (R113). -/
theorem tick_iterate_within {k : Nat} (hk : k < 2 * s.reload.toNat) :
    State.tick^[k] s = s.setCounter (BitVec.ofNat 16 (min k (2 * s.reload.toNat - k)))
      (if s.reload.toNat < k then .down else .up) := by
  obtain hle | hgt := le_or_gt k s.reload.toNat
  · rw [tick_iterate_up hcnt hdir hle, if_neg (Nat.not_lt_of_le hle), min_eq_left (by omega)]
  · obtain ⟨j, rfl⟩ := Nat.exists_eq_add_of_le hgt.le
    rw [tick_iterate_down hcnt hdir (by omega) (by omega), if_pos hgt, min_eq_right (by omega)]
    congr 2
    omega

/-- The counter after `k` ticks of a counting cycle, its end included (R113). -/
theorem tick_iterate_cnt (hr : 1 ≤ s.reload.toNat) {k : Nat} (hk : k ≤ 2 * s.reload.toNat) :
    (State.tick^[k] s).cnt.toNat = min k (2 * s.reload.toNat - k) := by
  obtain rfl | hlt := Nat.eq_or_lt_of_le hk
  · rw [tick_iterate_cycle hcnt hdir hr, setOvf_cnt, hcnt, Nat.sub_self, Nat.min_zero]
    rfl
  · have hreload := s.reload.isLt
    rw [tick_iterate_within hcnt hdir hlt, setCounter_cnt, toNat_half (by omega)]

end

/-- Settles O50: the counter's way up and down, and the state at its end. -/
theorem countingCycleOfTicks : Obligations.CountingCycleOfTicks := by
  intro s hcnt hdir hr
  refine ⟨fun k hk => ?_, fun k hk => ⟨tick_iterate_ovf hcnt hdir hk, ?_⟩, tick_iterate_cycle hcnt hdir hr⟩
  · rw [tick_iterate_cnt hcnt hdir hr hk]
    split <;> omega
  · rw [tick_iterate_within hcnt hdir hk, setCounter_dir]
    split <;> simp [*]

end Sys2Proof.Machine
end

section
/-! SUPPORT. The high ticks of a counting cycle (R116): the output is high after `k` ticks where `k` is nearer than the
compare value to one of the two ends of the cycle. -/

namespace Sys2Proof.Machine

/-- Of the numbers below `n`, those outside `a .. b - 1`. -/
theorem count_outside (a b n : Nat) : Nat.count (fun k => k < a ∨ b ≤ k) n = n - (min n b - a) := by
  induction n with
  | zero => simp
  | succ n ih =>
    rw [Nat.count_succ, ih]
    split <;> omega

/-- Ticks leave both channels alone (R26, R27). -/
theorem tick_iterate_chan (s : State) (x : ChannelId) (k : Nat) : (State.tick^[k] s).chan x = s.chan x := by
  induction k with
  | zero => rfl
  | succ k ih =>
    rw [Function.iterate_succ_apply', ← ih]
    cases x
    · exact tick_chA _
    · exact tick_chB _

/-- The number of ticks of a counting cycle after which the channel's output is high (R116). -/
def State.highTicks (s : State) (x : ChannelId) : Nat :=
  ((List.range (2 * s.reload.toNat)).filter fun k => (State.tick^[k + 1] s).out x = some true).length

section
variable {s : State} {x : ChannelId} (hcnt : s.cnt = 0) (hdir : s.dir = .up) (hr : 1 ≤ s.reload.toNat)
  (hen : (s.chan x).en = true)
include hcnt hdir hr hen

/-- An enabled channel's output after `k` ticks of a counting cycle (R113, R115). -/
theorem tick_iterate_out {k : Nat} (hk : k ≤ 2 * s.reload.toNat) :
    (State.tick^[k] s).out x = some (decide (min k (2 * s.reload.toNat - k) < (s.chan x).cmp.toNat)) := by
  have hchan := tick_iterate_chan s x k
  rw [out_enabled (by rwa [hchan]), hchan, tick_iterate_cnt hcnt hdir hr hk]

/-- The output is low from the `C`-th tick on, until `C` ticks are left: all other ticks are high (R116). -/
theorem highTicks_eq : s.highTicks x = 2 * s.reload.toNat -
    ((2 * s.reload.toNat - (s.chan x).cmp.toNat) - ((s.chan x).cmp.toNat - 1)) := by
  have hhigh : ∀ k ∈ List.range (2 * s.reload.toNat), decide ((State.tick^[k + 1] s).out x = some true) =
      decide (k < (s.chan x).cmp.toNat - 1 ∨ 2 * s.reload.toNat - (s.chan x).cmp.toNat ≤ k) := by
    intro k hk
    rw [List.mem_range] at hk
    rw [tick_iterate_out hcnt hdir hr hen hk, decide_eq_decide, Option.some_inj, decide_eq_true_eq]
    omega
  rw [State.highTicks, List.filter_congr hhigh, ← List.countP_eq_length_filter]
  exact (count_outside _ _ _).trans (by rw [min_eq_right (Nat.sub_le _ _)])

/-- With a converted duty the share of high ticks is within `1 / RELOAD` of it: the count is twice the compare value or one
less, and twice the converter's error is at most the scale (R97, R116). -/
theorem highTicks_near_duty {fs : FullScale} {d : Nat} (hconv : (s.chan x).cmp = conv fs s.reload d) :
    s.highTicks x * fs.value ≤ 2 * s.reload.toNat * min d fs.value + 2 * fs.value ∧
      2 * s.reload.toNat * min d fs.value ≤ s.highTicks x * fs.value + 2 * fs.value := by
  obtain ⟨hlow, hhigh⟩ := conv_error fs s.reload d
  have hle := conv_le fs s.reload d
  rw [← hconv] at hlow hhigh hle
  have hcount := highTicks_eq hcnt hdir hr hen
  have hmost : s.highTicks x * fs.value ≤ 2 * (s.chan x).cmp.toNat * fs.value := Nat.mul_le_mul_right _ (by omega)
  have hleast : 2 * (s.chan x).cmp.toNat * fs.value ≤ (s.highTicks x + 1) * fs.value := Nat.mul_le_mul_right _ (by omega)
  rw [Nat.mul_assoc 2] at hmost hleast ⊢
  rw [Nat.add_one_mul (s.highTicks x)] at hleast
  omega

end

/-- Settles O57: the count in its three ranges, the symmetry of the counter's way, and the converter's error doubled. -/
theorem highTicksOfACountingCycle : Obligations.HighTicksOfACountingCycle := by
  intro s x hcnt hdir hr hen r high
  have hcount : high = 2 * r - ((2 * r - (s.chan x).cmp.toNat) - ((s.chan x).cmp.toNat - 1)) :=
    highTicks_eq hcnt hdir hr hen
  refine ⟨by omega, by omega, by omega, fun k hk => ?_, fun fs d => highTicks_near_duty hcnt hdir hr hen⟩
  rw [tick_iterate_out hcnt hdir hr hen hk, tick_iterate_out hcnt hdir hr hen (Nat.sub_le _ _), Nat.sub_sub_self hk,
    min_comm]

end Sys2Proof.Machine
end

section
/-! SUPPORT. The host's dispatch (R121): two reads and an acknowledge, each followed by the block's clock. -/

namespace Sys2Proof.Machine

/-- The state after the cycle of a register read: its word, then the clock (R54, R59). -/
def State.afterRead (s : State) (r : Reg) : State := (s.setRdata (some (s.regRead r.offset))).clockCycle

/-- A register read (R54, R73). -/
theorem runCycle_rd (r : Reg) (s : State) : runCycle (rd r) s = .next (s.afterRead r) :=
  runCycle_access (accessBlock_read_aligned (by cases r <;> decide) (by cases r <;> decide) s)

/-- The state after the three cycles of the dispatch (R121). -/
def State.afterDispatch (s : State) : State := ((s.afterRead .status).afterRead .cbHandle).afterAck

/-- The dispatch completes: bit 3 of `STATUS` is `CBV`, and the clock between the two reads keeps the handle (R39, R121). -/
theorem dispatch_eq (s : State) :
    dispatch s = .next (s.afterDispatch, if s.cbv = true then some s.handle else none) := by
  have hack : runCycle (wr .irqAck 1) ((s.afterRead .status).afterRead .cbHandle) = .next s.afterDispatch :=
    runCycle_ack rfl _
  have hstatus : ((s.afterRead .status).rdata.getD 0).getLsbD 3 = s.cbv := by
    rw [State.afterRead, clockCycle_rdata]
    exact statusWord_getLsbD s 3
  have hhandle : ((s.afterRead .status).afterRead .cbHandle).rdata.getD 0 = s.handle := by
    rw [State.afterRead, clockCycle_rdata]
    exact clockCycle_handle _
  simp only [dispatch, runCycle_rd, onNext, hack, hstatus, hhandle]

/-- Neither the accesses nor the clock of the dispatch touch the callback, its enable, the run state or the selector (R121). -/
theorem afterDispatch_frame (s : State) :
    s.afterDispatch.ovie = s.ovie ∧ s.afterDispatch.cbv = s.cbv ∧ s.afterDispatch.handle = s.handle ∧
      s.afterDispatch.run = s.run ∧ s.afterDispatch.psel = s.psel := by
  simp [State.afterDispatch, State.afterAck, State.afterRead]

/-- No tick falls into the next `k` clock cycles (R22, R110). -/
def State.noTickWithin (s : State) (k : Nat) : Prop := s.run = .stopped ∨ s.psel = .none ∨ k < s.phase.toNat

/-- A clock cycle without a tick leaves `OVF` and the counter alone (R110). -/
theorem clockCycle_noTickWithin {s : State} {k : Nat} (h : s.noTickWithin (k + 1)) :
    s.clockCycle.noTickWithin k ∧ s.clockCycle.ovf = s.ovf ∧ s.clockCycle.cnt = s.cnt ∧ s.clockCycle.dir = s.dir := by
  obtain e | ⟨n, hn, -, hp, -⟩ | ⟨n, hn, -, -, e⟩ := clockCycle_cases s
  · rw [e]
    exact ⟨h.imp_right (Or.imp_right Nat.lt_of_succ_lt), rfl, rfl, rfl⟩
  · obtain ⟨hrun, hpsel, -⟩ := ecs_div? hn
    obtain hstop | hnone | hphase := h
    · rw [hrun] at hstop; cases hstop
    · exact absurd hnone hpsel
    · rw [hp] at hphase
      exact absurd hphase (Nat.not_lt_of_le (Nat.le_add_left _ _))
  · rw [e]
    refine ⟨h.imp_right (Or.imp_right fun hphase => ?_), rfl, rfl, rfl⟩
    rw [toNat_phase_sub_one (Nat.one_le_of_lt hphase)]
    exact Nat.lt_sub_of_add_lt hphase

/-- A read with no tick in its cycle leaves the counter alone (R56, R110). -/
theorem afterRead_noTickWithin {s : State} {k : Nat} (r : Reg) (h : s.noTickWithin (k + 1)) :
    (s.afterRead r).noTickWithin k ∧ (s.afterRead r).cnt = s.cnt ∧ (s.afterRead r).dir = s.dir :=
  have ⟨hrest, _, hcnt, hdir⟩ := clockCycle_noTickWithin (s := s.setRdata (some (s.regRead r.offset))) h
  ⟨hrest, hcnt, hdir⟩

/-- Without a tick in its three cycles, the dispatch leaves no overflow pending and the counter where it was (R121). -/
theorem afterDispatch_noTickWithin {s : State} (h : s.noTickWithin 3) :
    s.afterDispatch.ovf = false ∧ s.afterDispatch.cnt = s.cnt ∧ s.afterDispatch.dir = s.dir := by
  obtain ⟨h1, hcnt1, hdir1⟩ := afterRead_noTickWithin .status h
  obtain ⟨h2, hcnt2, hdir2⟩ := afterRead_noTickWithin .cbHandle h1
  obtain ⟨-, hovf, hcnt3, hdir3⟩ := clockCycle_noTickWithin (s := (State.setRdata _ none).setOvf false) h2
  exact ⟨hovf, hcnt3.trans (hcnt2.trans hcnt1), hdir3.trans (hdir2.trans hdir1)⟩

/-- Settles O58: no cycle of the dispatch touches the callback, and its last access is the acknowledge. -/
theorem dispatchDeliversTheStoredHandle : Obligations.DispatchDeliversTheStoredHandle := by
  intro s
  obtain ⟨hovie, hcbv, hhandle, hrun, hpsel⟩ := afterDispatch_frame s
  refine ⟨s.afterDispatch, dispatch_eq s, hovie, hcbv, hhandle, hrun, hpsel, fun h => ?_⟩
  obtain ⟨hovf, hcnt, hdir⟩ := afterDispatch_noTickWithin h
  exact ⟨hovf, by rw [State.irq, hovf, Bool.false_and], hcnt, hdir⟩

end Sys2Proof.Machine
end

section
/-! SUPPORT. A cycle with `rst` asserted, and the quiet that follows a reset (R47, R129, R130). -/

namespace Sys2Proof.Machine

/-! The reset cycle -/

/-- A read of the window in a reset cycle is answered with 0 (R129). -/
theorem rstRdata_read {off : Int} {size : Size} (h0 : 0 ≤ off) (h64 : off < 64) :
    rstRdata (some (.read off size)) = some 0 := if_pos (inWindow_of_mem (a := .read off size) h0 h64)

/-- Settles O13: the step is a reset with the access's answer as its only trace. -/
theorem resetCycleGivesResetValues : Obligations.ResetCycleGivesResetValues := by
  intro s a rest hin
  refine ⟨resetCycle a (s.setInputs rest), step_cons hin, rfl, rfl, rfl, rfl, rfl, rfl, rfl, rfl, rfl, rfl, rfl,
    drawAnyPhase_le _, rfl, rfl, ?_⟩
  rintro off size rfl h0 h64
  exact rstRdata_read h0 h64

/-! Quiet after reset -/

/-- The cycle neither runs a command nor resets the block. -/
def Cycle.inert (c : Cycle) : Prop := c.command? = none ∧ c.isRst = false

/-- Nothing but the operand registers and the model's host fields differs from the reset state, and nothing lined up can
change that (R130). -/
def State.quietSinceReset (s : State) : Prop :=
  s = { State.reset with argPeriod := s.argPeriod, argHandle := s.argHandle, inputs := s.inputs, rdata := s.rdata } ∧
    ∀ c ∈ s.inputs, c.inert

/-- An inert commit writes the operand registers, the read's word and, to clear it, `OVF` (R53, R54). -/
theorem Committed.of_inert {c : Cycle} {s u : State} (h : Committed c s u) (hc : c.inert) (ho : s.ovf = false) :
    u = { s with argPeriod := u.argPeriod, argHandle := u.argHandle, rdata := u.rdata } := by
  have hovf : u.ovf = false := h.ovf.elim (fun e => e.trans ho) fun ⟨e, _⟩ => e
  obtain ⟨i, hi, -⟩ | ⟨a, b, o, v, rfl⟩ := h.executed_or_quiet
  · rw [hc.1] at hi
    cases hi
  · obtain rfl : o = s.ovf := Eq.trans hovf ho.symm
    rfl

/-- The next of the inert cycles, the idle one of an empty list included, is inert. -/
theorem nextCycle_inert {s : State} (h : ∀ c ∈ s.inputs, c.inert) : s.nextCycle.inert := by
  rw [State.nextCycle]
  cases hin : s.inputs with
  | nil => exact ⟨rfl, rfl⟩
  | cons c cs => exact h c (by simp [hin])

/-- A step keeps the quiet: its commit is inert, and the clock of a stopped block moves nothing (R22, R130). -/
theorem step_quietSinceReset {s t : State} (hs : s.quietSinceReset) (h : step s = .next t) : t.quietSinceReset := by
  obtain ⟨hreset, hinert⟩ := hs
  obtain ⟨-, hrst⟩ := nextCycle_inert hinert
  obtain ⟨a, ha, -⟩ | ⟨-, u, hu, rfl⟩ := step_next_cases h
  · rw [ha] at hrst
    cases hrst
  · have hpopped := hu.of_inert (nextCycle_inert hinert) (by rw [State.popped, setInputs_ovf, hreset]; rfl)
    have hstopped : u.run = .stopped := by rw [hpopped]; exact congrArg State.run hreset
    have hclock := clockCycle_unclocked (s := u) (by rw [ecs_stopped hstopped]; rfl)
    refine ⟨?_, fun c hc => hinert c (List.mem_of_mem_tail ?_)⟩
    · rw [hclock, hpopped, State.popped, hreset]; rfl
    · rwa [clockCycle_inputs, hu.inputs, popped_inputs] at hc

/-- With nothing lined up, the clock leaves the reset state as it is (R22, R110). -/
theorem clockCycle_reset : State.reset.clockCycle = State.reset := clockCycle_unclocked rfl

/-- Settles O14: the reset state read off, its clock at rest, and the quiet as an invariant of every run. -/
theorem resetIsQuiescent : Obligations.ResetIsQuiescent := by
  refine ⟨rfl, rfl, statusWord_getLsbD State.reset 9, rfl, rfl, rfl, ?_, fun k => ?_, fun cs k t hcs h => ?_⟩
  · rintro (_ | _) <;> exact ⟨rfl, rfl, rfl, rfl⟩
  · rw [run_idle rfl rfl, Function.iterate_fixed clockCycle_reset]
  · have hquiet : State.quietSinceReset { State.reset with inputs := cs } := ⟨rfl, hcs⟩
    exact (run_invariant (fun _ _ => step_quietSinceReset) k hquiet h).1

end Sys2Proof.Machine
end

section
/-! SUPPORT. The time from one overflow event to the next (R112, R113, R136). -/

namespace Sys2Proof.Machine

/-- With `RELOAD = 0`, one divisor of clock cycles is a whole counting cycle: no event before its end, and at its end the
block is where it began with the overflow pending (R110, R112). -/
theorem clockCycle_iterate_reload_zero {s : State} {n : Nat} (hn : s.ecs.div? = some n) (hl : s.phaseLoaded = false)
    (hp : s.phase.toNat = n) (hcnt : s.cnt = 0) (hdir : s.dir = .up) (hz : s.reload = 0) :
    (∀ j, j < n → (State.clockCycle^[j] s).ovf = s.ovf) ∧ State.clockCycle^[n] s = s.setOvf true := by
  refine ⟨fun j hj => ?_, ?_⟩
  · rw [clockCycle_iterate_count hn hl (hp ▸ hj), setPhase_ovf]
  · rw [clockCycle_iterate_div hn hl hp, tick_zero hz, ← hcnt, ← hdir]
    rfl

/-- The acknowledge bound of a clocked counter, with `RELOAD` as a number (R136). -/
theorem ackBound_eq {s : State} {n : Nat} (hn : s.ecs.div? = some n) :
    s.ackBound = some (if s.reload.toNat = 0 then n else 2 * s.reload.toNat * n) := by
  have hzero : s.reload = 0 ↔ s.reload.toNat = 0 := BitVec.toNat_eq
  simp only [State.ackBound, hn, Option.map_some, hzero]

/-- Settles O54: where `RELOAD` is 1 or more it is the counting cycle of R87 in clock cycles, where it is 0 one tick. -/
theorem overflowsAreTheAcknowledgeBoundApart : Obligations.OverflowsAreTheAcknowledgeBoundApart := by
  intro s n hin hrd hl hrun hd hp hcnt hdir
  have hn : s.ecs.div? = some n := by rw [ecs_counting hrun, hd]
  refine ⟨_, ackBound_eq hn, rfl, ?_⟩
  by_cases hz : s.reload.toNat = 0
  · obtain ⟨hbefore, hat⟩ := clockCycle_iterate_reload_zero hn hl hp hcnt hdir (BitVec.eq_of_toNat_eq hz)
    rw [if_pos hz]
    exact ⟨fun j hj => ⟨_, run_idle hin hrd j, hbefore j hj⟩, (run_idle hin hrd n).trans (congrArg _ hat)⟩
  · rw [if_neg hz]
    exact countingCycleOfClocks.1 s n hin hrd hl hrun hd hp hcnt hdir (Nat.one_le_iff_ne_zero.mpr hz)

end Sys2Proof.Machine
end

section
/-! SUPPORT. The canonical start-up (R133): each of its API operations completes and makes one change to the block's set-up,
which neither the clock nor the start touches. -/

namespace Sys2Proof.Machine

/-! Runs of given cycles -/

/-- The cycles after the first run on from the state it answers. -/
theorem runCycles_cons {c : Cycle} {s t : State} (h : runCycle c s = .next t) (cs : List Cycle) :
    runCycles (c :: cs) s = runCycles cs t := by
  rw [runCycles, h]; rfl

/-- Two lists of cycles one after the other; no cycle of the first can stop the run (R107). -/
theorem runCycles_append {cs : List Cycle} {s t : State} (h : runCycles cs s = .next t) (ds : List Cycle) :
    runCycles (cs ++ ds) s = runCycles ds t := by
  induction cs generalizing s with
  | nil => cases h; rfl
  | cons c cs ih =>
    obtain ⟨u, hu⟩ : ∃ u, runCycle c s = .next u := by
      obtain ⟨_, -, e⟩ | ⟨-, _, -, e⟩ := runCycle_next c s
      · exact ⟨_, e⟩
      · exact ⟨_, e⟩
    rw [runCycles_cons hu] at h
    rw [List.cons_append, runCycles_cons hu]
    exact ih h

/-- A well-formed command by its mnemonic (R37, R73). -/
theorem runCycle_wrCmd {s t : State} {i : Instr} (hi : i.wellFormed = true) (h : exec i (s.setRdata none) = .next t) :
    runCycle (wrCmd i) s = .next t.clockCycle :=
  runCycle_cmdWrite (decodeWord_encode hi) h

/-- A write of `ARG_PERIOD` (R38, R73). -/
theorem runCycle_argPeriod (v : Word) (s : State) :
    runCycle (wr .argPeriod v) s = .next ((s.setRdata none).setArgPeriod v).clockCycle :=
  runCycle_access (accessBlock_write_aligned (off := 0x04) (by decide) rfl v s)

/-- A write of `ARG_HANDLE` (R38, R73). -/
theorem runCycle_argHandle (v : Word) (s : State) :
    runCycle (wr .argHandle v) s = .next ((s.setRdata none).setArgHandle v).clockCycle :=
  runCycle_access (accessBlock_write_aligned (off := 0x08) (by decide) rfl v s)

/-! The set-up of the block -/

/-- What the start-up sets before it starts the counter, with the parameters it sets it by: the clock configuration, the
channels, and `HANDLE`, `CBV` and `OVIE` (R133). -/
structure Setup where
  cfg : Config
  clock : Psel × Half
  chA : Channel
  chB : Channel
  callback : Word × Bool × Bool

/-- The set-up of a state. -/
def State.setup (s : State) : Setup where
  cfg := s.cfg
  clock := (s.psel, s.reload)
  chA := s.chA
  chB := s.chB
  callback := (s.handle, s.cbv, s.ovie)

/-- The period set (R77, R80). -/
def Setup.withPeriod (u : Setup) (us : Word) : Setup := { u with clock := periodConfig u.cfg.clkHz us.toNat }

/-- A channel enabled with a duty, its pin requested (R99). -/
def Setup.pwmChannel (u : Setup) (d : Nat) : Channel :=
  { en := true, cmp := conv u.cfg.fullScale u.clock.2 d, pindir := true }

/-- The channel enabled with its duty, if one is chosen (R99, R133). -/
def Setup.withDuty (u : Setup) (duty : Option Nat) : ChannelId → Setup
  | .A => { u with chA := duty.elim u.chA u.pwmChannel }
  | .B => { u with chB := duty.elim u.chB u.pwmChannel }

/-- The callback stored and enabled, if one is given (R103, R133). -/
def Setup.withCallback (u : Setup) (cb : Option Word) : Setup :=
  { u with callback := cb.elim u.callback fun h => (h, true, true) }

/-- The clock touches nothing of the set-up (R110). -/
@[simp] theorem clockCycle_setup (s : State) : s.clockCycle.setup = s.setup := by simp [State.setup]

/-! The operations of the start-up -/

/-- From every state the cycles complete and change the set-up by `f`. -/
def SetsUp (cs : List Cycle) (f : Setup → Setup) : Prop :=
  ∀ s, ∃ t, runCycles cs s = .next t ∧ t.setup = f s.setup

theorem SetsUp.append {cs ds : List Cycle} {f g : Setup → Setup} (hcs : SetsUp cs f) (hds : SetsUp ds g) :
    SetsUp (cs ++ ds) fun u => g (f u) := by
  intro s
  obtain ⟨t, ht, et⟩ := hcs s
  obtain ⟨v, hv, ev⟩ := hds t
  exact ⟨v, (runCycles_append ht ds).trans hv, by rw [ev, et]⟩

/-- `initialize` sets the clock configuration (R74, R80). -/
theorem setsUp_initialise (us : Word) : SetsUp (ApiOp.initialise us).expand fun u => u.withPeriod us := by
  intro s
  refine ⟨_, (runCycles_cons (runCycle_argPeriod us s) _).trans (runCycles_cons (runCycle_wrCmd rfl rfl) _), ?_⟩
  simp [State.setup, Setup.withPeriod, State.requestedConfig]

/-- The operands that name a channel are 0 and 1 (R67). -/
theorem lt_two_of_channelOf {ch : Nat} {x : ChannelId} (hx : channelOf ch = some x) : ch < 2 := by
  refine Nat.lt_of_not_le fun hge => ?_
  rw [channelOf_eq_none.mpr hge] at hx
  cases hx

/-- `pwm` without a period enables the channel, where one is chosen (R74, R99). -/
theorem setsUp_pwm {ch : Nat} {x : ChannelId} (hx : channelOf ch = some x) {duty : Option Nat}
    (hduty : ∀ d, duty = some d → d < 2048) :
    SetsUp (duty.elim [] fun d => (ApiOp.pwm ch d none).expand) fun u => u.withDuty duty x := by
  intro s
  cases duty with
  | none => exact ⟨s, rfl, by cases x <;> rfl⟩
  | some d =>
    have hi : (Instr.pwm false ch d).wellFormed = true :=
      wellFormed_pwm.mpr ⟨Nat.lt_of_lt_of_le (lt_two_of_channelOf hx) (by decide), hduty d rfl⟩
    refine ⟨_, runCycles_cons (runCycle_wrCmd hi (exec_pwm_some hx false d _)) [], ?_⟩
    rw [clockCycle_setup]
    cases x <;> rfl

/-- `attachInterrupt` without a period stores and enables the callback, where one is given (R74, R103). -/
theorem setsUp_attach (cb : Option Word) :
    SetsUp (cb.elim [] fun h => (ApiOp.attachInterrupt h none).expand) fun u => u.withCallback cb := by
  intro s
  cases cb with
  | none => exact ⟨s, rfl, rfl⟩
  | some h =>
    refine ⟨_, (runCycles_cons (runCycle_argHandle h s) _).trans (runCycles_cons (runCycle_wrCmd rfl rfl) _), ?_⟩
    simp [State.setup, Setup.withCallback, State.applyPeriodIf]

/-- The start at the end begins counting from zero and keeps the set-up (R89). -/
theorem runCycles_start (s : State) :
    ∃ t, runCycles ApiOp.start.expand s = .next t ∧ t.run = .counting ∧ t.cnt = 0 ∧ t.dir = .up ∧ t.ovf = false ∧
      t.setup = s.setup := by
  refine ⟨_, runCycles_cons (runCycle_wrCmd rfl rfl) [], ?_⟩
  rw [startCounting_clockCycle]
  simp [State.setup]

/-- Settles O59: the operations compose to the set-up of the end state, whose elements are then read off. -/
theorem canonicalStartUp : Obligations.CanonicalStartUp := by
  intro s us dutyA dutyB cb hA hB
  have hsets := (((setsUp_initialise us).append (setsUp_pwm (ch := 0) rfl hA)).append (setsUp_pwm (ch := 1) rfl hB)).append
    (setsUp_attach cb)
  obtain ⟨u, hu, husetup⟩ := hsets s
  obtain ⟨t, ht, hrun, hcnt, hdir, hovf, htsetup⟩ := runCycles_start u
  have hsetup := htsetup.trans husetup
  have hclock : (t.psel, t.reload) = periodConfig s.cfg.clkHz us.toNat := congrArg Setup.clock hsetup
  have hreload : t.reload = (periodConfig s.cfg.clkHz us.toNat).2 := congrArg Prod.snd hclock
  have hchA := congrArg Setup.chA hsetup
  have hchB := congrArg Setup.chB hsetup
  have hcallback : (t.handle, t.cbv, t.ovie) = cb.elim (s.handle, s.cbv, s.ovie) fun h => (h, true, true) :=
    congrArg Setup.callback hsetup
  refine ⟨t, (runCycles_append hu _).trans ht, hrun, hclock, hcnt, hdir, hovf, ?_, ?_, ?_, ?_, ?_, ?_⟩
  · rintro d rfl
    rw [hreload]
    exact hchA
  · rintro d rfl
    rw [hreload]
    exact hchB
  · rintro rfl
    exact hchA
  · rintro rfl
    exact hchB
  · rintro h rfl
    simpa using hcallback
  · rintro rfl
    simpa using hcallback

end Sys2Proof.Machine
end
